-- ==== Sys2Proof/Word.lean ====
section
/-! DEFINITION. The words and numbers of the CL-8: bytes, counters, station ids, channel numbers, sets of station ids. -/

namespace Sys2Proof

/-- A byte of the host port (R171). -/
abbrev Byte := BitVec 8

/-- A 16-bit counter or number: round, generation, feed number, error counters. -/
abbrev Counter := BitVec 16

/-- A station id, 0 to 31 (R4). -/
abbrev StationId := Fin 32

/-- A local channel number, 0 to 7. -/
abbrev Channel := Fin 8

/-- A set of station ids, id k as bit k of a 32-bit number (R200). -/
abbrev IdSet := BitVec 32

/-- The sequence number of an announcement (R34). -/
abbrev Seq := BitVec 8

/-- A measured value (R20). -/
abbrev Value := BitVec 12

/-- A code of the sweep and of the annunciation pins: severity, then the unacked flag (R163). -/
abbrev Code := BitVec 3

end Sys2Proof
end

