-- ==== Sys2Proof/Syntax.lean ====
section
/-! DEFINITION. The commands of the block: one constructor for each of the 49 rows of spec/opcode_table.json. The table gives
no operand fields; each operand here is what the row's rule needs from outside (log entry 4). -/

namespace Sys2Proof

/-- Which side takes an event first, where the spec gives the outcome of both orders inside one row of the table
(R90: the notice queue or the station controller; R153: the peer roster or the station controller). -/
inductive TakenFirst where
  /-- the block that owns the record (queue, roster) -/
  | owner
  /-- the station controller -/
  | controller
deriving DecidableEq, Repr

/-- A command. Bits on the group line are given as the line reads them. -/
inductive Instr where
  /-- The power-on reset ends; the straps, and SCS and CFS as they are found. -/
  | powerOn (straps : BitVec 5) (scs cfs : Bool)
  | rstAsserted
  /-- RST is released; the straps as sampled. -/
  | rstReleased (straps : BitVec 5)
  | scsAsserted
  /-- SCS is released; the bits on SDI since the last byte that a command told, in order: a request cut short (R175). -/
  | scsReleased (bits : List Bool := [])
  /-- A byte that is no command code. -/
  | badCommand (code : Byte)
  | status
  | configWrite (item : Byte) (value : BitVec 16)
  | configRead (item : Byte)
  | start
  | restart
  | quiet
  | resume
  | view (rank : Byte)
  | entry (origin channel : Byte)
  | ack (origin channel seq : Byte)
  | shelve (channel : Byte)
  | unshelve (channel : Byte)
  | purge (origin : Byte)
  | feedPeek
  | feedRelease (count : Byte)
  | roster (id : Byte)
  | queue (slot : Byte)
  | channel (channel : Byte)
  | countersRead
  | countersClear
  | cfsAsserted
  /-- CFS is released; the bits on CDT at the rising edges of CCK since CFS was asserted, in order. -/
  | wordClose (bits : List Bool)
  | staleTimerExpiry (channel : Channel)
  | roundTimerExpiry
  | silenceTimerExpiry
  | markRecognised
  | markUnrecognised
  | markTrailingEdge
  /-- The census slots read driven, and the order of R153. -/
  | censusEnd (slots : IdSet) (first : TakenFirst)
  | sweepStart
  /-- The three sweep bits read, the first the most significant, driven as 1. -/
  | sweepEnd (read : BitVec 3)
  /-- Whether the start bit reads driven. -/
  | windowStart (driven : Bool)
  /-- The key bit, 1 to 10, at which the contest is lost. -/
  | contestLost (bit : Nat)
  /-- The bit time of the window, 0 the start bit, 1 to 10 a key bit, at which the fault is read; the order of R90. -/
  | lineFaultAbandon (bit : Nat) (first : TakenFirst)
  | keyWon
  /-- The bit time of the window, 11 to 54, at which the mismatch is read; the order of R90. -/
  | readBackMismatch (bit : Nat) (first : TakenFirst)
  | frameSentWhole
  /-- The 54 values read at key, payload and CRC, the first the most significant. -/
  | frameJudged (read : BitVec 54)
  | receiptSlot
  /-- The receipt slots read driven. -/
  | receiptFieldEnd (slots : IdSet)
  | roundEnd
  | lineStuck
  | lineRestored
deriving DecidableEq, Repr

end Sys2Proof
end

