-- ==== Sys2Proof/Decode.lean ====
section
/-! DEFINITION. The command a word spells by the table's bits. No row of spec/opcode_table.json gives bits, so no word spells
a command (log entry 17). The codes of the host port are decoded by the port itself (Machine/Codes.lean, R172), the frames
of the group line by the line engine (Machine/Operands.lean, R140). -/

namespace Sys2Proof

/-- The command that the low `nbits` bits of `w` spell: none, since no row of the table has bits. -/
def decodeTableWord (_nbits _w : Nat) : Option Instr := none

end Sys2Proof
end

