-- ==== Sys2Proof/Config.lean ====
section
/-! DEFINITION. What the part fixes (capacities, lengths, limits) and the values the manual leaves open. -/

namespace Sys2Proof.Config

/-- Places of the condition table for remote entries (R43). -/
def remotePlaces : Nat := 88

/-- Records the feed holds (R192). -/
def feedPlaces : Nat := 32

/-- Bit times of a mark as driven by one station (R106). -/
def markLength : Nat := 10

/-- The driven bit time of a run on the idle line at which a mark is recognised (R104). -/
def markRecognition : Nat := 8

/-- The driven run that is a stuck line (R118). -/
def stuckRun : Nat := 40

/-- The released run that restores the line (R119). -/
def restoreRun : Nat := 64

/-- Round periods without a mark before the lone start (R156). -/
def silencePeriods : Nat := 3

/-- Consecutive abandonments that take the station QUIET (R129). -/
def abandonLimit : Nat := 3

/-- Microseconds of one unit of the stale limit, 10 ms (R25). -/
def staleUnit : Nat := 10000

/-- The generator of the frame CRC without its x^8 term (R127). -/
def crcPolynomial : BitVec 8 := 0xD5#8

/-- The CRC register at the start (R127). -/
def crcStart : BitVec 8 := 0xFF#8

/-- FREE VALUE, DESIGN CHOICE (log entry 9). Whether the level part of an ENTRY_REMOVED with reason CLEARED is that of the
announcement that cleared the entry (true) or that of the entry before it (false). R48 and R49 name the part and do not say
which. Nothing in Lean can evaluate it. -/
opaque removalShowsAnnouncedLevel : Bool

/-- FREE VALUE, DESIGN CHOICE (log entry 9). The same for the seq part. Nothing in Lean can evaluate it. -/
opaque removalShowsAnnouncedSeq : Bool

/-- FREE VALUE, DESIGN CHOICE (log entry 5). Where a bit time brings an event whose two takings R90 or R153 leaves in either
order, whether the block that owns the record (queue, roster) takes it first: for the bit time with a given number. Nothing in
Lean can evaluate it. -/
opaque ownerTakesFirst : Nat → Bool

end Sys2Proof.Config
end

