-- ==== Sys2Proof/Machine/Bits.lean ====
section
/-! DEFINITION. Bit and byte helpers: bits in line order, byte order of the host port, saturating counters, sets of ids. -/

namespace Sys2Proof.Machine

/-- The bits of a number, most significant first: the order of the line, the sample port and the host port (R122, R171). -/
def msbBits {n : Nat} (v : BitVec n) : List Bool := (List.range n).map v.getMsbD

/-- One bit shifted into a register at its least significant end. -/
def shiftIn {n : Nat} (v : BitVec n) (b : Bool) : BitVec n := (v <<< 1) ||| (if b then 1 else 0)

/-- A number sent high byte first (R200). -/
def bytes16 (v : BitVec 16) : List Byte := [v.extractLsb' 8 8, v.extractLsb' 0 8]

/-- A set of ids in four bytes, high byte first (R200). -/
def bytes32 (v : BitVec 32) : List Byte :=
  [v.extractLsb' 24 8, v.extractLsb' 16 8, v.extractLsb' 8 8, v.extractLsb' 0 8]

/-- A number from 0 to 255 as a byte. -/
def byteOf (n : Nat) : Byte := BitVec.ofNat 8 n

/-- A yes/no value as a byte (R200). -/
def byteOfBool (b : Bool) : Byte := if b then 1 else 0

/-- The byte of an absent part (R200). -/
def absentByte : Byte := 0xFF#8

/-- A flag in one bit of a flag byte (R200). -/
def flagBit (b : Bool) (k : Nat) : Byte := if b then 1#8 <<< k else 0

/-- An increment that stops at the largest value. -/
def satInc {n : Nat} (v : BitVec n) : BitVec n := if v = BitVec.allOnes n then v else v + 1

/-- The set that holds one id. -/
def idBit (k : StationId) : IdSet := 1#32 <<< k.val

/-- Whether an id is in a set. -/
def hasId (ids : IdSet) (k : StationId) : Bool := ids.getLsbD k.val

/-- The ids of `a` that are not in `b`. -/
def idMinus (a b : IdSet) : IdSet := a &&& ~~~b

/-- The ids below a group size: the slots of a census or receipt field (R109, R137). -/
def slotMask (size : Nat) : IdSet := BitVec.ofNat 32 (2 ^ size - 1)

/-- The station ids in ascending order. -/
def stationIds : List StationId := (List.range 32).map (fun n => Fin.ofNat 32 n)

/-- The channels in order 0 to 7. -/
def channelOrder : List Channel := [0, 1, 2, 3, 4, 5, 6, 7]

end Sys2Proof.Machine
end

