-- ==== Sys2Proof/Machine/Codes.lean ====
section
/-! DEFINITION. The host commands: their codes, counts of argument bytes and response lengths (R172, R201), and the status
codes (R200). -/

namespace Sys2Proof.Machine

/-- The 20 commands of the host port (R172). -/
inductive HostCommand where
  | status | configWrite | configRead | start | restart | quiet | resume
  | view | entry | ack | shelve | unshelve | purge
  | feedPeek | feedRelease
  | roster | queue | channel | countersRead | countersClear
deriving DecidableEq, Repr

/-- The statuses of R177. -/
inductive Status where
  | ok | badCommand | badState | badItem | badValue | configInvalid | noSuchEntry | staleSeq | alreadyAcked
  | ackPending | ackLimit | ownOrigin | originPresent | feedEmpty | none
deriving DecidableEq, Repr

/-- Command codes (R201). -/
def HostCommand.code : HostCommand → Byte
  | .status => 0x01#8 | .configWrite => 0x02#8 | .configRead => 0x03#8 | .start => 0x04#8 | .restart => 0x05#8
  | .quiet => 0x06#8 | .resume => 0x07#8
  | .view => 0x10#8 | .entry => 0x11#8 | .ack => 0x12#8 | .shelve => 0x13#8 | .unshelve => 0x14#8 | .purge => 0x15#8
  | .feedPeek => 0x20#8 | .feedRelease => 0x21#8
  | .roster => 0x30#8 | .queue => 0x31#8 | .channel => 0x32#8 | .countersRead => 0x33#8 | .countersClear => 0x34#8

/-- Every host command, in the order of R201. -/
def HostCommand.all : List HostCommand :=
  [.status, .configWrite, .configRead, .start, .restart, .quiet, .resume, .view, .entry, .ack, .shelve, .unshelve,
   .purge, .feedPeek, .feedRelease, .roster, .queue, .channel, .countersRead, .countersClear]

/-- The command a code names, if any (R172). -/
def HostCommand.ofCode (b : Byte) : Option HostCommand := HostCommand.all.find? (fun c => c.code == b)

/-- Argument bytes of a command (R172, R201). -/
def HostCommand.argCount : HostCommand → Nat
  | .configWrite | .ack => 3
  | .entry => 2
  | .configRead | .view | .shelve | .unshelve | .purge | .feedRelease | .roster | .queue | .channel => 1
  | .status | .start | .restart | .quiet | .resume | .feedPeek | .countersRead | .countersClear => 0

/-- Response bytes of a command, the status byte counted (R174, R201). -/
def HostCommand.responseLength : HostCommand → Nat
  | .status => 13 | .configWrite => 1 | .configRead => 3 | .start => 2 | .restart => 1 | .quiet => 1 | .resume => 1
  | .view => 15 | .entry => 15 | .ack => 2 | .shelve => 1 | .unshelve => 1 | .purge => 2
  | .feedPeek => 15 | .feedRelease => 2
  | .roster => 5 | .queue => 17 | .channel => 16 | .countersRead => 17 | .countersClear => 1

/-- Status codes (R200). -/
def Status.code : Status → Byte
  | .ok => 0x00#8 | .badCommand => 0x01#8 | .badState => 0x02#8 | .badItem => 0x03#8 | .badValue => 0x04#8
  | .configInvalid => 0x05#8 | .noSuchEntry => 0x06#8 | .staleSeq => 0x07#8 | .alreadyAcked => 0x08#8
  | .ackPending => 0x09#8 | .ackLimit => 0x0A#8 | .ownOrigin => 0x0B#8 | .originPresent => 0x0C#8
  | .feedEmpty => 0x0D#8 | .none => 0x0E#8

end Sys2Proof.Machine
end

