-- ==== Sys2Proof/Machine/State.lean ====
section
/-! DEFINITION. The state of the station: every piece of state the spec gives its ten blocks, as plain data, and the machine
right after reset. Each block owns its structure. -/

namespace Sys2Proof.Machine

/-- The six station states (R1). -/
inductive StationState where
  | setup | listen | joining | active | quiet | stuck
deriving DecidableEq, Repr

/-- The QUIET causes (R2). -/
inductive QuietCause where
  | none | host | idClash | txFault
deriving DecidableEq, Repr

/-- The line state (R118). -/
inductive LineState where
  | up | stuck
deriving DecidableEq, Repr

/-- The fields of a round (R103); `window k` is the k-th window, counted from 1. -/
inductive Field where
  | mark | gapMark | census | gapCensus | sweep | gapSweep | window (k : Nat) | endGap
deriving DecidableEq, Repr

/-- The engine's position (R102). In ROUND: the field in progress and how many of its bit times have passed. -/
inductive Position where
  | off | seek | round (field : Field) (bit : Nat) | idle
deriving DecidableEq, Repr

/-- The role in a window (R128). -/
inductive Role where
  | contender | sender | receiver
deriving DecidableEq, Repr

/-- The judgement of a frame (R128, R140). -/
inductive Judgement where
  | accepted | rejected
deriving DecidableEq, Repr

/-- The six levels of a channel. -/
inductive Level where
  | normal | lowWarn | highWarn | lowAlarm | highAlarm | fault
deriving DecidableEq, Repr

/-- Why a channel is in FAULT (R24, R25). -/
inductive FaultCause where
  | none | converter | stale
deriving DecidableEq, Repr

/-- Roster presence (R147). -/
inductive Presence where
  | absent | present
deriving DecidableEq, Repr

/-- The states of a queue entry (R71). -/
inductive EntryState where
  | waiting | resting | candidate | sending
deriving DecidableEq, Repr

/-- The kinds of notice frames (R123). -/
inductive NoticeKind where
  | raise | clear | ack | state | replay
deriving DecidableEq, Repr

/-- Why an entry was removed (R49). -/
inductive RemovalReason where
  | cleared | ackedAfterClear | rejoin | purge
deriving DecidableEq, Repr

/-- The phases of the host port (R170). -/
inductive Phase where
  | idle | command | arguments | response | spent | blocked
deriving DecidableEq, Repr

/-- The bit rate item (R5). -/
inductive BitRate where
  | k10 | k25 | k50 | k100
deriving DecidableEq, Repr

/-- The channel items of the configuration image (R5). -/
structure ChannelConfig where
  enable : Bool
  la : Nat
  lw : Nat
  hw : Nat
  ha : Nat
  hysteresis : Nat
  persistence : Nat
deriving DecidableEq, Repr

/-- The configuration image (R5). -/
structure Image where
  groupSize : Nat
  windows : Nat
  bitRate : BitRate
  period : Nat
  absenceLimit : Nat
  retryLimit : Nat
  staleLimit : Nat
  watermark : Nat
  channels : Vector ChannelConfig 8
deriving DecidableEq, Repr

/-- The announcement record (R27). `ackedBy` holds the acked field and acked_by together: acked_by is present exactly when
acked is yes. `shelved` is also the channel's shelved flag, which it follows at every moment (R27, R35). -/
structure Record where
  seq : Seq
  level : Level
  active : Bool
  ackedBy : Option StationId
  shelved : Bool
  value : Value
deriving DecidableEq, Repr

/-- A channel monitor (R39 lists its state). The stale timer is stopped or has that many microseconds left (R25). -/
structure Monitor where
  level : Level
  candidate : Option Level
  count : Nat
  lastValue : Value
  staleTimer : Option Nat
  faultCause : FaultCause
  record : Record
deriving DecidableEq, Repr

/-- The word assembler of the sample port (R18, R19). -/
structure Assembler where
  /-- a frame is open -/
  framing : Bool
  /-- the bits taken in the open frame -/
  taken : BitVec 16
  /-- how many bits were taken -/
  count : Nat
  /-- no bit is taken until CFS has been seen released -/
  waiting : Bool
deriving DecidableEq, Repr

/-- An entry of the condition table (R40); `ackedBy` holds acked and acked_by together. -/
structure Entry where
  origin : StationId
  channel : Channel
  level : Level
  seq : Seq
  active : Bool
  ackedBy : Option StationId
  shelved : Bool
  orphaned : Bool
  value : Value
  firstRound : Counter
  changedRound : Counter
deriving DecidableEq, Repr

/-- The condition table. The entries stand in rising order of their keys (origin, then channel), so that equal tables are
equal lists and channel order (R59, R64, R66) is list order. -/
structure Table where
  entries : List Entry
  generation : Counter
  drops : Counter
deriving DecidableEq, Repr

/-- What a queue entry carries: its class with the fields of that class (R69). -/
inductive Notice where
  | channel (channel : Channel) (stateOnly : Bool)
  | ack (origin : StationId) (channel : Channel) (seq : Seq) (severity : Nat)
  | replay
deriving DecidableEq, Repr

/-- An entry of the notice queue (R69). The queue is the list of its entries in age order, oldest first, so staged_order is
the position in the list (R72). -/
structure QueueEntry where
  slot : Fin 15
  notice : Notice
  state : EntryState
  restage : Bool
  withdraw : Bool
  attempts : Nat
  receipts : IdSet
deriving DecidableEq, Repr

/-- The frame in flight (R128). -/
structure Flight where
  key : BitVec 10
  payload : BitVec 36
  crc : BitVec 8
deriving DecidableEq, Repr

/-- The station's part in the window under way (R128). -/
structure Window where
  role : Role
  flight : Option Flight
  /-- the receive register: the values read so far at key, payload and CRC, true for released (1) -/
  received : List Bool
  judgement : Option Judgement
  /-- this station sent the frame of this window whole (R136) -/
  sentWhole : Bool
  /-- the receipt map as read so far (R137) -/
  slots : IdSet
deriving DecidableEq, Repr

/-- The station's part in the sweep under way (R111, R112). -/
structure SweepPart where
  /-- the station was JOINING or ACTIVE at the sweep's first bit time -/
  tookPart : Bool
  code : Code
  participant : Bool
  /-- what this station drove in the sweep bits that have passed -/
  sent : List Bool
  /-- what the line read in the sweep bits that have passed, true for driven (R112) -/
  read : List Bool
deriving DecidableEq, Repr

/-- The line engine (R121 lists its state). Timers hold the bit times left. -/
structure LineEngine where
  lineState : LineState
  position : Position
  roundTimer : Option Nat
  deferredMark : Bool
  /-- this station drives or has driven a mark and no mark has been recognised since (R102, R106) -/
  ownMark : Bool
  round : Counter
  censusMap : IdSet
  sweep : Option SweepPart
  sweepResult : Code
  /-- the model's own record of the bits this station drove in its last whole sweep (log entry 14) -/
  sweepSent : Code
  /-- windows of this round reached so far (R113) -/
  windowsUsed : Nat
  window : Option Window
  drivenRun : Nat
  releasedRun : Nat
  /-- the driven bit times of the present run that were read with the line idle (R104, R117; log entry 8) -/
  idleRun : Nat
  crcErrors : Counter
  malformed : Counter
  abandons : BitVec 8
  /-- what is set to be sent in the bit times to come, the next one first: a mark, the own census slot, the bits of a frame,
  the own receipt slot; beyond the list, released. The start bit and the sweep are decided bit by bit (log entry 13) -/
  tx : List Bool
deriving DecidableEq, Repr

/-- A roster record (R147). -/
structure Peer where
  presence : Presence
  missed : Nat
  lastSeen : Counter
deriving DecidableEq, Repr

/-- The annunciation unit: own contribution, output code, ANN_LINK (R163 to R166). -/
structure Annunciation where
  own : Code
  code : Code
  link : Bool
deriving DecidableEq, Repr

/-- The host port (R170). -/
structure Port where
  phase : Phase
  /-- the bits of the byte being taken, and how many -/
  shift : Byte
  bits : Nat
  command : Option HostCommand
  args : List Byte
  response : List Byte
  /-- bits of the response sent -/
  sent : Nat
  aborts : Counter
  /-- the port's own reset after RESTART is still to come (R176) -/
  restartPending : Bool
deriving DecidableEq, Repr

/-- The kinds of feed records with the parts each carries (R190). -/
inductive FeedBody where
  | entryAdded (origin : StationId) (channel : Channel) (level : Level) (seq : Seq) (active : Bool) (ackedBy : Option StationId)
  | entryChanged (origin : StationId) (channel : Channel) (level : Level) (seq : Seq) (active : Bool) (ackedBy : Option StationId)
  | entryAcked (origin : StationId) (channel : Channel) (level : Level) (seq : Seq) (ackedBy : StationId)
  | entryRemoved (origin : StationId) (channel : Channel) (level : Level) (seq : Seq) (reason : RemovalReason)
      (ackedBy : Option StationId)
  | entryEvicted (origin : StationId) (channel : Channel) (level : Level) (seq : Seq)
  | noticeDropped (origin : StationId) (channel : Channel) (level : Level) (seq : Seq) (active acked : Bool)
  | peerJoined (id : StationId) (count : Nat)
  | peerLeft (id : StationId) (count : Nat)
  | deliveryPartialChannel (channel : Channel) (seq : Seq) (attempts : Nat) (missing : IdSet)
  | deliveryPartialAck (origin : StationId) (channel : Channel) (seq : Seq) (attempts : Nat) (missing : IdSet)
  | ackSuperseded (origin : StationId) (channel : Channel) (seq : Seq)
  | joinComplete (missing : IdSet)
  | stationQuiet (cause : QuietCause)
  | lineStuck
  | lineRestored
  | configMismatch (id : StationId) (groupSize : BitVec 6) (windows : BitVec 3) (period : BitVec 14)
  | gap (count : Counter)
deriving DecidableEq, Repr

/-- A feed record (R189). -/
structure FeedRecord where
  number : Counter
  round : Counter
  urgent : Bool
  body : FeedBody
deriving DecidableEq, Repr

/-- The feed (R192, R194, R197). -/
structure Feed where
  records : List FeedRecord
  next : Counter
  gap : Counter
  gapUrgent : Bool
  urgentCount : Nat
  irq : Bool
deriving DecidableEq, Repr

/-- The state of the station, and the queue of commands that wait for it. -/
structure State where
  /-- the commands waiting, first in, first out -/
  pending : List Instr
  /-- RST is asserted -/
  rst : Bool
  /-- SCS is asserted -/
  scsPin : Bool
  /-- CFS is asserted -/
  cfsPin : Bool
  /-- what GRX reads in the bit times to come, the next one first, true for driven: an input from outside, like the waiting
  commands (log entry 23) -/
  grxAhead : List Bool
  /-- bit times counted by the model, to which the open orders are applied (log entry 5) -/
  bitTimes : Nat
  id : StationId
  station : StationState
  cause : QuietCause
  isSealed : Bool
  image : Image
  listenCount : Nat
  silenceTimer : Option Nat
  assembler : Assembler
  framingErrors : Counter
  monitors : Vector Monitor 8
  table : Table
  queue : List QueueEntry
  line : LineEngine
  roster : Vector Peer 32
  ann : Annunciation
  port : Port
  feed : Feed
deriving DecidableEq, Repr

/-- The faults of the machine: none. The spec gives every command an effect in every state; errors are counted, fed to the
host or answered by a status (INVENTORY.md, Faults). No constructor, so nobody raises one: safe. -/
inductive Fault where
deriving DecidableEq, Repr

/-- The refusals of the machine. -/
inductive Refusal where
  /-- A command that has no meaning yet; raised by an arm of `exec` alone. Safe: the machine stops. -/
  | notModelled (mnemonic : String)
deriving DecidableEq, Repr

/-- Channel items after RST (R5). -/
def ChannelConfig.default : ChannelConfig :=
  { enable := false, la := 0, lw := 0, hw := 4095, ha := 4095, hysteresis := 16, persistence := 3 }

/-- The configuration image after RST (R5). -/
def Image.default : Image :=
  { groupSize := 8, windows := 2, bitRate := .k50, period := 512, absenceLimit := 3, retryLimit := 6, staleLimit := 50
    watermark := 1, channels := Vector.replicate 8 ChannelConfig.default }

/-- The announcement record after RST (R39). -/
def Record.reset : Record :=
  { seq := 0, level := .normal, active := false, ackedBy := none, shelved := false, value := 0 }

/-- A channel monitor after RST (R39). -/
def Monitor.reset : Monitor :=
  { level := .normal, candidate := none, count := 0, lastValue := 0, staleTimer := none, faultCause := .none
    record := Record.reset }

/-- The word assembler after RST, CFS being found released (R39, R19). -/
def Assembler.reset : Assembler := { framing := false, taken := 0, count := 0, waiting := false }

/-- The condition table after RST (R68). -/
def Table.reset : Table := { entries := [], generation := 0, drops := 0 }

/-- The line engine after RST (R121). -/
def LineEngine.reset : LineEngine :=
  { lineState := .up, position := .off, roundTimer := none, deferredMark := false, ownMark := false, round := 0
    censusMap := 0, sweep := none, sweepResult := 0, sweepSent := 0, windowsUsed := 0, window := none
    drivenRun := 0, releasedRun := 0, idleRun := 0, crcErrors := 0, malformed := 0, abandons := 0, tx := [] }

/-- A roster record after RST (R162). -/
def Peer.reset : Peer := { presence := .absent, missed := 0, lastSeen := 0 }

/-- The annunciation unit after RST (R169). -/
def Annunciation.reset : Annunciation := { own := 0, code := 0, link := false }

/-- The host port after RST, SCS being found released (R176). -/
def Port.reset : Port :=
  { phase := .idle, shift := 0, bits := 0, command := none, args := [], response := [], sent := 0, aborts := 0
    restartPending := false }

/-- The feed after RST (R199). -/
def Feed.reset : Feed := { records := [], next := 0, gap := 0, gapUrgent := false, urgentCount := 0, irq := false }

/-- The station right after RST is released (R3), with the straps read as 0 and SCS and CFS released: DESIGN CHOICE, log
entry 6. No command waits. -/
def State.reset : State :=
  { pending := [], rst := false, scsPin := false, cfsPin := false, grxAhead := [], bitTimes := 0, id := 0, station := .setup, cause := .none
    isSealed := false, image := Image.default, listenCount := 0, silenceTimer := none, assembler := Assembler.reset
    framingErrors := 0, monitors := Vector.replicate 8 Monitor.reset, table := Table.reset, queue := []
    line := LineEngine.reset, roster := Vector.replicate 32 Peer.reset, ann := Annunciation.reset, port := Port.reset
    feed := Feed.reset }

end Sys2Proof.Machine
end

