-- ==== Sys2Proof/Machine/Flags.lean ====
section
/-! DEFINITION. What follows from the state by computation alone: permissions of the station states, severity, entry codes,
urgency, the orders of the table, and the classification of a sample. -/

namespace Sys2Proof.Machine

/-! ### Permissions of the station states (R1) -/

/-- JOINING or ACTIVE: the states that may drive the group line (R1). -/
def StationState.participates : StationState → Bool
  | .joining | .active => true
  | .setup | .listen | .quiet | .stuck => false

/-- The states that follow rounds, read the census and accept frames (R1). -/
def StationState.observes : StationState → Bool
  | .listen | .joining | .active | .quiet => true
  | .setup | .stuck => false

/-- The states in which sample words are classified (R1). -/
def StationState.classifies : StationState → Bool
  | .setup => false
  | .listen | .joining | .active | .quiet | .stuck => true

/-! ### Levels and severities -/

/-- The severity of a level. -/
def Level.severity : Level → Nat
  | .normal => 0
  | .lowWarn | .highWarn => 1
  | .fault => 2
  | .lowAlarm | .highAlarm => 3

/-- Whether an entry is acknowledged (R41). -/
def Entry.acked (e : Entry) : Bool := e.ackedBy.isSome

/-- The severity of an entry (R41). -/
def Entry.severity (e : Entry) : Nat := e.level.severity

/-- An ENTRY_ADDED or ENTRY_CHANGED is urgent when the entry has severity 3 and is unacked (R48, R191). -/
def Entry.urgent (e : Entry) : Bool := decide (e.severity = 3) && !e.acked

/-- The place of a key in the table's order. -/
def keyIndex (origin : StationId) (channel : Channel) : Nat := origin.val * 8 + channel.val

/-- An entry's place by its key. -/
def Entry.index (e : Entry) : Nat := keyIndex e.origin e.channel

/-- Whether an entry has a key. -/
def Entry.hasKey (e : Entry) (origin : StationId) (channel : Channel) : Bool :=
  decide (e.origin = origin) && decide (e.channel = channel)

/-- The entry code of the annunciation unit (R163). -/
def Entry.code (e : Entry) : Nat := if e.active then 2 * e.severity + (if e.acked then 0 else 1) else 1

/-- The own contribution: the largest entry code of the unshelved own-origin entries, 000 without one (R163). -/
def ownContribution (id : StationId) (entries : List Entry) : Code :=
  BitVec.ofNat 3 ((entries.filter (fun e => decide (e.origin = id) && !e.shelved)).foldl (fun m e => max m e.code) 0)

/-! ### The orders of the table -/

/-- Lexicographic comparison of two rank lists. -/
def ranksBefore : List Nat → List Nat → Bool
  | a :: as, b :: bs => decide (a < b) || (decide (a = b) && ranksBefore as bs)
  | _, _ => false

/-- The tests of the view order, each written so that lower comes first (R46). -/
def Entry.viewRanks (e : Entry) : List Nat :=
  [3 - e.severity, if e.acked then 1 else 0, e.firstRound.toNat, e.origin.val, e.channel.val]

/-- The tests of the victim order, each written so that lower comes first (R61). -/
def Entry.victimRanks (e : Entry) : List Nat :=
  [e.severity, if e.acked then 0 else 1, if e.active then 1 else 0, e.firstRound.toNat, e.origin.val, e.channel.val]

/-- `a` stands before `b` in the view order (R46). -/
def viewBefore (a b : Entry) : Bool := ranksBefore a.viewRanks b.viewRanks

/-- `a` is chosen as the victim before `b` (R61). -/
def victimBefore (a b : Entry) : Bool := ranksBefore a.victimRanks b.victimRanks

/-- Insertion into a list in the view order. -/
def insertByView (e : Entry) : List Entry → List Entry
  | [] => [e]
  | f :: fs => if viewBefore e f then e :: f :: fs else f :: insertByView e fs

/-- The entries in the view order (R46). -/
def viewOrder (entries : List Entry) : List Entry := entries.foldr insertByView []

/-- The first entry of a list by the victim order. -/
def firstVictim : List Entry → Option Entry
  | [] => none
  | e :: es =>
    match firstVictim es with
    | none => some e
    | some v => if victimBefore v e then some v else some e

/-- The remote entries (R43). -/
def remoteEntries (id : StationId) (entries : List Entry) : List Entry := entries.filter (fun e => decide (e.origin ≠ id))

/-- A newcomer is admitted when its severity is above the victim's, or equal with the victim acked and the newcomer not
(R62). -/
def admitted (victim newcomer : Entry) : Bool :=
  decide (victim.severity < newcomer.severity) ||
    (decide (victim.severity = newcomer.severity) && victim.acked && !newcomer.acked)

/-- `s` is newer than `e`: ahead by 1 to 127 modulo 256 (R34, R53). -/
def newer (s e : Seq) : Bool := decide (1 ≤ (s - e).toNat ∧ (s - e).toNat ≤ 127)

/-! ### Classification of a sample -/

/-- The raw level of a value (R21). -/
def rawLevel (c : ChannelConfig) (v : Nat) : Level :=
  if c.ha ≤ v then .highAlarm
  else if c.hw ≤ v then .highWarn
  else if v ≤ c.la then .lowAlarm
  else if v ≤ c.lw then .lowWarn
  else .normal

/-- The target level of a value, with hysteresis; `v > HA − h` on whole numbers is `HA < v + h` (R22). -/
def targetLevel (c : ChannelConfig) (current : Level) (v : Nat) : Level :=
  match current with
  | .highAlarm =>
    if c.ha < v + c.hysteresis then .highAlarm
    else if c.hw < v + c.hysteresis then .highWarn
    else rawLevel c v
  | .highWarn =>
    if c.ha ≤ v then .highAlarm
    else if c.hw < v + c.hysteresis then .highWarn
    else rawLevel c v
  | .lowAlarm =>
    if v < c.la + c.hysteresis then .lowAlarm
    else if v < c.lw + c.hysteresis then .lowWarn
    else rawLevel c v
  | .lowWarn =>
    if v ≤ c.la then .lowAlarm
    else if v < c.lw + c.hysteresis then .lowWarn
    else rawLevel c v
  | .normal => rawLevel c v
  | .fault => rawLevel c v

/-- The candidate and the persistence count after a classified value, before any adoption (R23). -/
def persist (current target : Level) (candidate : Option Level) (count : Nat) : Option Level × Nat :=
  if target = current then (none, 0)
  else if candidate = some target then (candidate, count + 1)
  else (some target, 1)

/-! ### Timers -/

/-- Microseconds of one bit time (R5, R101). -/
def BitRate.bitMicros : BitRate → Nat
  | .k10 => 100 | .k25 => 40 | .k50 => 20 | .k100 => 10

/-- The stale timer at its full limit; a limit of 0 turns it off (R25). -/
def Image.staleStart (i : Image) : Option Nat := if i.staleLimit = 0 then none else some (i.staleLimit * Config.staleUnit)

/-- The minimum round length (R8, R103). -/
def Image.minimumRound (i : Image) : Nat := 21 + i.groupSize + i.windows * (59 + i.groupSize)

end Sys2Proof.Machine
end

