-- ==== Sys2Proof/Machine/Operands.lean ====
section
/-! DEFINITION. The layouts a partner sees: the frame on the group line with its CRC, the sample word, the configuration items
and the bytes of the host port's responses. -/

namespace Sys2Proof.Machine

/-! ### Codes -/

/-- Level codes (chapter 12). -/
def Level.code : Level → Nat
  | .normal => 0 | .lowWarn => 1 | .highWarn => 2 | .lowAlarm => 3 | .highAlarm => 4 | .fault => 5

/-- The level of a code. -/
def Level.ofCode : Nat → Option Level
  | 0 => some .normal | 1 => some .lowWarn | 2 => some .highWarn | 3 => some .lowAlarm | 4 => some .highAlarm
  | 5 => some .fault | _ => none

/-- State codes (R200). -/
def StationState.code : StationState → Byte
  | .setup => 0 | .listen => 1 | .joining => 2 | .active => 3 | .quiet => 4 | .stuck => 5

/-- QUIET cause codes (R200). -/
def QuietCause.code : QuietCause → Byte
  | .none => 0 | .host => 1 | .idClash => 2 | .txFault => 3

/-- Line state codes (R200). -/
def LineState.code : LineState → Byte
  | .up => 0 | .stuck => 1

/-- Position codes (R200). -/
def Position.code : Position → Byte
  | .off => 0 | .seek => 1 | .round _ _ => 2 | .idle => 3

/-- Queue entry state codes (R200). -/
def EntryState.code : EntryState → Byte
  | .waiting => 0 | .resting => 1 | .candidate => 2 | .sending => 3

/-- Removal reason codes (R200). -/
def RemovalReason.code : RemovalReason → Byte
  | .cleared => 0 | .ackedAfterClear => 1 | .rejoin => 2 | .purge => 3

/-- Fault cause codes (R200). -/
def FaultCause.code : FaultCause → Byte
  | .none => 0 | .converter => 1 | .stale => 2

/-- Presence codes (R200). -/
def Presence.code : Presence → Byte
  | .absent => 0 | .present => 1

/-- Kind ranks of notice frames (R81, R123). -/
def NoticeKind.rank : NoticeKind → Nat
  | .raise => 0 | .clear => 1 | .ack => 2 | .state => 3 | .replay => 4

/-- The kind of a rank; 5 to 7 are no kind (R123). -/
def NoticeKind.ofRank : Nat → Option NoticeKind
  | 0 => some .raise | 1 => some .clear | 2 => some .ack | 3 => some .state | 4 => some .replay | _ => none

/-- The bit rate in kbit/s (R5). -/
def BitRate.kbits : BitRate → Nat
  | .k10 => 10 | .k25 => 25 | .k50 => 50 | .k100 => 100

/-- The bit rate of a number of kbit/s (R5). -/
def BitRate.ofKbits : Nat → Option BitRate
  | 10 => some .k10 | 25 => some .k25 | 50 => some .k50 | 100 => some .k100 | _ => none

/-! ### The frame on the group line -/

/-- One bit as a field of a frame: 1 for yes (R122). -/
def bitField (b : Bool) : BitVec 1 := BitVec.ofBool b

/-- The contest key: 256 × (3 − severity) + 32 × kind rank + id (R81). -/
def contestKey (severity : Nat) (kind : NoticeKind) (id : StationId) : Nat :=
  256 * (3 - severity) + 32 * kind.rank + id.val

/-- The payload of a RAISE, CLEAR or STATE (R124); acked_by of an unacked announcement is sent as 11111 (R122). -/
def announcementPayload (channel : Channel) (r : Record) : BitVec 36 :=
  BitVec.ofNat 3 channel.val ++ r.seq ++ BitVec.ofNat 3 r.level.code ++ bitField r.active ++ bitField r.ackedBy.isSome ++
    BitVec.ofNat 5 ((r.ackedBy.map (·.val)).getD 31) ++ bitField r.shelved ++ r.value ++ 3#2

/-- The payload of an ACK (R125). -/
def ackPayload (origin : StationId) (channel : Channel) (seq : Seq) : BitVec 36 :=
  BitVec.ofNat 5 origin.val ++ BitVec.ofNat 3 channel.val ++ seq ++ BitVec.allOnes 20

/-- The payload of a REPLAY (R126). -/
def replayPayload (i : Image) : BitVec 36 :=
  BitVec.ofNat 6 i.groupSize ++ BitVec.ofNat 3 i.windows ++ BitVec.ofNat 14 i.period ++ BitVec.allOnes 13

/-- One bit through the CRC register (R127). -/
def crcStep (register : BitVec 8) (bit : Bool) : BitVec 8 :=
  let shifted := register <<< 1
  if register.msb != bit then shifted ^^^ Config.crcPolynomial else shifted

/-- The CRC of a run of bits (R127). -/
def crcOf (bits : List Bool) : BitVec 8 := bits.foldl crcStep Config.crcStart

/-- The CRC over key and payload (R127). -/
def frameCrc (key : BitVec 10) (payload : BitVec 36) : BitVec 8 := crcOf (msbBits key ++ msbBits payload)

/-- The frame in flight of a key and a payload (R130). -/
def flightOf (key : BitVec 10) (payload : BitVec 36) : Flight :=
  { key := key, payload := payload, crc := frameCrc key payload }

/-- The 54 values of a frame after its start bit, as one number. -/
def Flight.values (f : Flight) : BitVec 54 := f.key ++ f.payload ++ f.crc

/-- The same values in line order; window bit n is element n − 1. -/
def Flight.bits (f : Flight) : List Bool := msbBits f.values

/-- The value sent in window bit `n`, 1 to 54 (R131, R135). -/
def Flight.bitAt (f : Flight) (n : Nat) : Bool := f.values.getMsbD (n - 1)

/-- What a frame says, as a receiver reads it (R124 to R126). -/
inductive Frame where
  | announcement (kind : NoticeKind) (channel : Channel) (record : Record)
  | ack (target : StationId) (channel : Channel) (seq : Seq)
  | replay (groupSize : BitVec 6) (windows : BitVec 3) (period : BitVec 14)
deriving DecidableEq, Repr

/-- The judgement of a frame with its content (R140). -/
inductive Verdict where
  | crcError
  | malformed
  | accepted (origin : StationId) (frame : Frame)
deriving DecidableEq, Repr

/-- An ACK payload as read (R125). -/
def readAck (p : BitVec 36) : Frame :=
  .ack (Fin.ofNat 32 (p.extractLsb' 31 5).toNat) (Fin.ofNat 8 (p.extractLsb' 28 3).toNat) (p.extractLsb' 20 8)

/-- A REPLAY payload as read (R126). -/
def readReplay (p : BitVec 36) : Frame :=
  .replay (p.extractLsb' 30 6) (p.extractLsb' 27 3) (p.extractLsb' 13 14)

/-- The announcement of a RAISE, CLEAR or STATE payload as read, for a level already decoded (R124). -/
def readRecord (p : BitVec 36) (level : Level) : Record :=
  { seq := p.extractLsb' 25 8
    level := level
    active := p.getLsbD 21
    ackedBy := if p.getLsbD 20 then some (Fin.ofNat 32 (p.extractLsb' 15 5).toNat) else none
    shelved := p.getLsbD 14
    value := p.extractLsb' 2 12 }

/-- Checks 3 to 5 of R140 on a RAISE, CLEAR or STATE. -/
def announcementValid (kind : NoticeKind) (r : Record) : Bool :=
  decide (r.level ≠ .normal) &&
    match kind with
    | .raise => r.active
    | .clear => !r.active
    | .state => r.active || r.ackedBy.isNone
    | .ack | .replay => false

/-- A RAISE, CLEAR or STATE as judged (R140, checks 3 to 5). -/
def judgeAnnouncement (origin : StationId) (kind : NoticeKind) (p : BitVec 36) : Verdict :=
  match Level.ofCode (p.extractLsb' 22 3).toNat with
  | none => .malformed
  | some level =>
    if announcementValid kind (readRecord p level) then
      .accepted origin (.announcement kind (Fin.ofNat 8 (p.extractLsb' 33 3).toNat) (readRecord p level))
    else .malformed

/-- The checks a receiver makes at bit time 54, in order (R123, R140). -/
def judgeFrame (read : BitVec 54) : Verdict :=
  let key := read.extractLsb' 44 10
  let payload := read.extractLsb' 8 36
  let origin : StationId := Fin.ofNat 32 (key.toNat % 32)
  if frameCrc key payload = read.extractLsb' 0 8 then
    match NoticeKind.ofRank (key.toNat / 32 % 8) with
    | none => .malformed
    | some .ack => .accepted origin (readAck payload)
    | some .replay => .accepted origin (readReplay payload)
    | some .raise => judgeAnnouncement origin .raise payload
    | some .clear => judgeAnnouncement origin .clear payload
    | some .state => judgeAnnouncement origin .state payload
  else .crcError

/-! ### The sample word -/

/-- The channel of a sample word, bits 15 to 13. -/
def wordChannel (w : BitVec 16) : Channel := Fin.ofNat 8 (w.extractLsb' 13 3).toNat

/-- The converter-fault bit of a sample word, bit 12. -/
def wordFault (w : BitVec 16) : Bool := w.getLsbD 12

/-- The value of a sample word, bits 11 to 0. -/
def wordValue (w : BitVec 16) : Value := w.extractLsb' 0 12

/-! ### Configuration items (R203) -/

/-- The configuration items by what they name. -/
inductive Item where
  | groupSize | windows | bitRate | period | absenceLimit | retryLimit | staleLimit | watermark | stationId
  | enable (c : Channel) | la (c : Channel) | lw (c : Channel) | hw (c : Channel) | ha (c : Channel)
  | hysteresis (c : Channel) | persistence (c : Channel)
deriving DecidableEq, Repr

/-- The channel item of number 16 + 8c + k. -/
def Item.ofChannelNumber (c : Channel) : Nat → Option Item
  | 0 => some (.enable c) | 1 => some (.la c) | 2 => some (.lw c) | 3 => some (.hw c) | 4 => some (.ha c)
  | 5 => some (.hysteresis c) | 6 => some (.persistence c) | _ => none

/-- The item of a number (R203). -/
def Item.ofNumber (n : Nat) : Option Item :=
  match n with
  | 0 => some .groupSize | 1 => some .windows | 2 => some .bitRate | 3 => some .period | 4 => some .absenceLimit
  | 5 => some .retryLimit | 6 => some .staleLimit | 7 => some .watermark | 8 => some .stationId
  | n => if 16 ≤ n ∧ n ≤ 79 then Item.ofChannelNumber (Fin.ofNat 8 ((n - 16) / 8)) ((n - 16) % 8) else none

/-- The number of an item (R203). -/
def Item.number : Item → Nat
  | .groupSize => 0 | .windows => 1 | .bitRate => 2 | .period => 3 | .absenceLimit => 4 | .retryLimit => 5
  | .staleLimit => 6 | .watermark => 7 | .stationId => 8
  | .enable c => 16 + 8 * c.val | .la c => 17 + 8 * c.val | .lw c => 18 + 8 * c.val | .hw c => 19 + 8 * c.val
  | .ha c => 20 + 8 * c.val | .hysteresis c => 21 + 8 * c.val | .persistence c => 22 + 8 * c.val

/-- Whether a value is in an item's range (R5, R6). The station id is never written (R4). -/
def Item.inRange : Item → Nat → Bool
  | .groupSize, v => decide (2 ≤ v ∧ v ≤ 32)
  | .windows, v => decide (1 ≤ v ∧ v ≤ 4)
  | .bitRate, v => (BitRate.ofKbits v).isSome
  | .period, v => decide (128 ≤ v ∧ v ≤ 16383)
  | .absenceLimit, v => decide (2 ≤ v ∧ v ≤ 15)
  | .retryLimit, v => decide (1 ≤ v ∧ v ≤ 15)
  | .staleLimit, v => decide (v ≤ 255)
  | .watermark, v => decide (1 ≤ v ∧ v ≤ 32)
  | .stationId, _ => false
  | .enable _, v => decide (v ≤ 1)
  | .la _, v | .lw _, v | .hw _, v | .ha _, v => decide (v ≤ 4095)
  | .hysteresis _, v => decide (v ≤ 255)
  | .persistence _, v => decide (1 ≤ v ∧ v ≤ 15)

/-- The settings of a channel. -/
def Image.channel (i : Image) (c : Channel) : ChannelConfig := i.channels[c]

/-- The image with one channel's settings changed. -/
def Image.setChannel (i : Image) (c : Channel) (k : ChannelConfig) : Image :=
  { i with channels := i.channels.set c k c.isLt }

/-- The value an item reads as (R7). -/
def Image.read (i : Image) (id : StationId) : Item → Nat
  | .groupSize => i.groupSize | .windows => i.windows | .bitRate => i.bitRate.kbits | .period => i.period
  | .absenceLimit => i.absenceLimit | .retryLimit => i.retryLimit | .staleLimit => i.staleLimit
  | .watermark => i.watermark | .stationId => id.val
  | .enable c => if (i.channel c).enable then 1 else 0
  | .la c => (i.channel c).la | .lw c => (i.channel c).lw | .hw c => (i.channel c).hw | .ha c => (i.channel c).ha
  | .hysteresis c => (i.channel c).hysteresis | .persistence c => (i.channel c).persistence

/-- The image with an item's value stored (R6). -/
def Image.write (i : Image) : Item → Nat → Image
  | .groupSize, v => { i with groupSize := v }
  | .windows, v => { i with windows := v }
  | .bitRate, v => { i with bitRate := (BitRate.ofKbits v).getD i.bitRate }
  | .period, v => { i with period := v }
  | .absenceLimit, v => { i with absenceLimit := v }
  | .retryLimit, v => { i with retryLimit := v }
  | .staleLimit, v => { i with staleLimit := v }
  | .watermark, v => { i with watermark := v }
  | .stationId, _ => i
  | .enable c, v => i.setChannel c { i.channel c with enable := decide (v = 1) }
  | .la c, v => i.setChannel c { i.channel c with la := v }
  | .lw c, v => i.setChannel c { i.channel c with lw := v }
  | .hw c, v => i.setChannel c { i.channel c with hw := v }
  | .ha c, v => i.setChannel c { i.channel c with ha := v }
  | .hysteresis c, v => i.setChannel c { i.channel c with hysteresis := v }
  | .persistence c, v => i.setChannel c { i.channel c with persistence := v }

/-- The first failing threshold check among a list of channels, as the item START names (R8, check 3). -/
def Image.failingChannel (i : Image) : List Channel → Option Item
  | [] => none
  | c :: cs =>
    let k := i.channel c
    if k.enable then
      if k.lw < k.la then some (.lw c)
      else if k.hw ≤ k.lw then some (.hw c)
      else if k.ha < k.hw then some (.ha c)
      else i.failingChannel cs
    else i.failingChannel cs

/-- The first failing check of START (R8). -/
def Image.failingItem (i : Image) (id : StationId) : Option Item :=
  if i.groupSize ≤ id.val then some .groupSize
  else if i.period < i.minimumRound then some .period
  else i.failingChannel channelOrder

/-! ### Response bytes -/

/-- A station id that may be absent, as a byte (R200). -/
def byteOfId : Option StationId → Byte
  | none => absentByte
  | some k => byteOf k.val

/-- An entry in a response, 12 bytes (R201). -/
def Entry.bytes (e : Entry) : List Byte :=
  [byteOf e.origin.val, byteOf e.channel.val, byteOf e.level.code, e.seq,
   flagBit e.active 7 ||| flagBit e.acked 6 ||| flagBit e.shelved 5 ||| flagBit e.orphaned 4, byteOfId e.ackedBy] ++
    bytes16 (e.value.setWidth 16) ++ bytes16 e.firstRound ++ bytes16 e.changedRound

/-- A list of parts followed by FFh up to a length (R200). -/
def padded (length : Nat) (bytes : List Byte) : List Byte :=
  bytes ++ List.replicate (length - bytes.length) absentByte

/-- The kind code of a feed record (R202). -/
def FeedBody.code : FeedBody → Byte
  | .entryAdded .. => 0 | .entryChanged .. => 1 | .entryAcked .. => 2 | .entryRemoved .. => 3 | .entryEvicted .. => 4
  | .noticeDropped .. => 5 | .peerJoined .. => 6 | .peerLeft .. => 7 | .deliveryPartialChannel .. => 8
  | .deliveryPartialAck .. => 8 | .ackSuperseded .. => 9 | .joinComplete .. => 10 | .stationQuiet .. => 11
  | .lineStuck => 12 | .lineRestored => 13 | .configMismatch .. => 14 | .gap .. => 15

/-- The parts P1 to P9 a kind carries, before the FFh bytes that fill them up (R202). -/
def FeedBody.parts : FeedBody → List Byte
  | .entryAdded o c l q active by_ | .entryChanged o c l q active by_ =>
    [byteOf o.val, byteOf c.val, byteOf l.code, q, flagBit active 7 ||| flagBit by_.isSome 6, byteOfId by_]
  | .entryAcked o c l q k => [byteOf o.val, byteOf c.val, byteOf l.code, q, absentByte, byteOf k.val]
  | .entryRemoved o c l q reason by_ => [byteOf o.val, byteOf c.val, byteOf l.code, q, reason.code, byteOfId by_]
  | .entryEvicted o c l q => [byteOf o.val, byteOf c.val, byteOf l.code, q]
  | .noticeDropped o c l q active acked =>
    [byteOf o.val, byteOf c.val, byteOf l.code, q, flagBit active 7 ||| flagBit acked 6]
  | .peerJoined k n | .peerLeft k n => [byteOf k.val, byteOf n]
  | .deliveryPartialChannel c q attempts missing =>
    [0, absentByte, byteOf c.val, q, byteOf attempts] ++ bytes32 missing
  | .deliveryPartialAck o c q attempts missing =>
    [1, byteOf o.val, byteOf c.val, q, byteOf attempts] ++ bytes32 missing
  | .ackSuperseded o c q => [byteOf o.val, byteOf c.val, q]
  | .joinComplete missing => List.replicate 5 absentByte ++ bytes32 missing
  | .stationQuiet cause => [cause.code]
  | .lineStuck | .lineRestored => []
  | .configMismatch k s w p => [byteOf k.val, s.setWidth 8, w.setWidth 8] ++ bytes16 (p.setWidth 16)
  | .gap n => bytes16 n

/-- A feed record in a response, 14 bytes (R202). -/
def FeedRecord.bytes (r : FeedRecord) : List Byte :=
  bytes16 r.number ++ [flagBit r.urgent 7 ||| r.body.code] ++ bytes16 r.round ++ padded 9 r.body.parts

/-- The stale timer in units of 10 ms, rounded up; 00h when stopped (R186, R201). -/
def staleUnits : Option Nat → Nat
  | none => 0
  | some left => (left + (Config.staleUnit - 1)) / Config.staleUnit

/-- The channel state in a response, 15 bytes (R201). -/
def Monitor.bytes (m : Monitor) (enable : Bool) : List Byte :=
  [byteOfBool enable, byteOf m.level.code, (m.candidate.map (fun l => byteOf l.code)).getD absentByte, byteOf m.count] ++
    bytes16 (m.lastValue.setWidth 16) ++
    [m.faultCause.code, byteOfBool m.record.shelved, byteOf (staleUnits m.staleTimer), m.record.seq,
     byteOf m.record.level.code,
     flagBit m.record.active 7 ||| flagBit m.record.ackedBy.isSome 6 ||| flagBit m.record.shelved 5,
     byteOfId m.record.ackedBy] ++
    bytes16 (m.record.value.setWidth 16)

end Sys2Proof.Machine
end

