-- ==== Sys2Proof/Machine/Ops.lean ====
section
/-! DEFINITION. The named operations over the blocks: feed, annunciation, condition table, notice queue, channel monitors,
roster, line engine and station controller. The meanings of the commands are built from these. -/

namespace Sys2Proof.Machine

/-! ### Feed and IRQ -/

/-- IRQ judged afresh (R197). -/
def Feed.judge (watermark : Nat) (f : Feed) : Feed :=
  { f with irq := decide (watermark ≤ f.records.length) || decide (0 < f.urgentCount) }

/-- A record stored at the newest end (R192). -/
def Feed.append (round : Counter) (urgent : Bool) (body : FeedBody) (f : Feed) : Feed :=
  { f with
    records := f.records ++ [{ number := f.next, round := round, urgent := urgent, body := body }]
    next := f.next + 1
    urgentCount := f.urgentCount + (if urgent then 1 else 0) }

/-- A record lost for want of room (R194). -/
def Feed.lose (urgent : Bool) (f : Feed) : Feed :=
  { f with gap := satInc f.gap, gapUrgent := f.gapUrgent || urgent }

/-- A record arriving at the feed (R192, R194). -/
def Feed.arrive (watermark : Nat) (round : Counter) (urgent : Bool) (body : FeedBody) (f : Feed) : Feed :=
  if f.records.length < Config.feedPlaces then (f.append round urgent body).judge watermark else f.lose urgent

/-- The oldest records removed (R195, step 1). -/
def Feed.drop (count : Nat) (f : Feed) : Feed :=
  { f with
    records := f.records.drop count
    urgentCount := f.urgentCount - ((f.records.take count).filter (·.urgent)).length }

/-- A GAP record formed where records were lost and room was made (R195, step 2). -/
def Feed.formGap (round : Counter) (removed : Nat) (f : Feed) : Feed :=
  if 0 < removed ∧ f.gap ≠ 0 then
    { f.append round f.gapUrgent (.gap f.gap) with gap := 0, gapUrgent := false }
  else f

/-- A release of records, as one event (R195). -/
def Feed.release (watermark : Nat) (round : Counter) (count : Nat) (f : Feed) : Feed :=
  ((f.drop count).formGap round (min count f.records.length)).judge watermark

/-- A record written by a block, with the round counter of the moment (R189). -/
def State.write (body : FeedBody) (urgent : Bool) (s : State) : State :=
  { s with feed := s.feed.arrive s.image.watermark s.line.round urgent body }

/-! ### Annunciation unit -/

/-- The own contribution computed afresh; the pins follow while ANN_LINK is released (R164, R165). -/
def State.recompute (s : State) : State :=
  let own := ownContribution s.id s.table.entries
  { s with ann := { s.ann with own := own, code := if s.ann.link then s.ann.code else own } }

/-- ANN_LINK released and the output code set to the own contribution (R167). -/
def State.releaseLink (s : State) : State :=
  { s with ann := { s.ann with link := false, code := s.ann.own } }

/-- The hand-off at the end of a sweep (R166). -/
def State.takeSweep (result : Code) (tookPart : Bool) (s : State) : State :=
  if tookPart && s.station.participates then { s with ann := { s.ann with link := true, code := result } } else s

/-! ### Condition table -/

/-- The entry of a key, if held (R42). -/
def Table.find (t : Table) (origin : StationId) (channel : Channel) : Option Entry :=
  t.entries.find? (fun e => e.hasKey origin channel)

/-- Insertion in key order. -/
def insertEntry (e : Entry) : List Entry → List Entry
  | [] => [e]
  | f :: fs => if e.index < f.index then e :: f :: fs else f :: insertEntry e fs

/-- The entry of the same key replaced. -/
def replaceEntry (e : Entry) (entries : List Entry) : List Entry :=
  entries.map (fun f => if f.hasKey e.origin e.channel then e else f)

/-- The entry of a key taken out. -/
def dropEntry (origin : StationId) (channel : Channel) (entries : List Entry) : List Entry :=
  entries.filter (fun f => !f.hasKey origin channel)

/-- The table hands its change to the annunciation unit when it concerns an own-origin entry (R50). -/
def State.handToAnnunciation (origin : StationId) (s : State) : State :=
  if origin = s.id then s.recompute else s

/-- An entry created: counted, recorded, handed on (R44, R48, R50). -/
def State.addEntry (e : Entry) (s : State) : State :=
  let t := { s.table with entries := insertEntry e s.table.entries, generation := s.table.generation + 1 }
  ((({ s with table := t } : State).write
    (.entryAdded e.origin e.channel e.level e.seq e.active e.ackedBy) e.urgent)).handToAnnunciation e.origin

/-- The table with an entry changed and counted (R44). -/
def State.storeEntry (e : Entry) (s : State) : State :=
  { s with table := { s.table with entries := replaceEntry e s.table.entries, generation := s.table.generation + 1 } }

/-- An entry changed other than by an ACK (R44, R48, R50). -/
def State.changeEntry (e : Entry) (s : State) : State :=
  ((s.storeEntry e).write (.entryChanged e.origin e.channel e.level e.seq e.active e.ackedBy) e.urgent).handToAnnunciation
    e.origin

/-- The table with an entry taken out and counted (R44). -/
def State.dropEntry (origin : StationId) (channel : Channel) (s : State) : State :=
  { s with
    table := { s.table with
      entries := Machine.dropEntry origin channel s.table.entries, generation := s.table.generation + 1 } }

/-- An entry removed for a reason of R49; `shown` gives the level and seq parts of the record. -/
def State.removeEntry (e : Entry) (level : Level) (seq : Seq) (reason : RemovalReason) (ackedBy : Option StationId)
    (s : State) : State :=
  ((s.dropEntry e.origin e.channel).write (.entryRemoved e.origin e.channel level seq reason ackedBy) false).handToAnnunciation
    e.origin

/-- An entry removed with reason CLEARED. Whether the level and seq parts are those of the announcement or those the entry
held is left open: free values (log entry 9). -/
def State.clearEntry (e : Entry) (announced : Record) (s : State) : State :=
  let level := if Config.removalShowsAnnouncedLevel then announced.level else e.level
  let seq := if Config.removalShowsAnnouncedSeq then announced.seq else e.seq
  s.removeEntry e level seq .cleared announced.ackedBy

/-- An entry as an announcement record overwrites it; changed_round takes the round counter (R45). -/
def Entry.overwrite (e : Entry) (r : Record) (round : Counter) : Entry :=
  { e with
    level := r.level, seq := r.seq, active := r.active, ackedBy := r.ackedBy, shelved := r.shelved, value := r.value
    changedRound := round }

/-- A new entry with an announcement's content (R45). -/
def Entry.ofRecord (origin : StationId) (channel : Channel) (r : Record) (orphaned : Bool) (round : Counter) : Entry :=
  { origin := origin, channel := channel, level := r.level, seq := r.seq, active := r.active, ackedBy := r.ackedBy
    shelved := r.shelved, orphaned := orphaned, value := r.value, firstRound := round, changedRound := round }

/-- The entries of an origin, in channel order. -/
def Table.ofOrigin (t : Table) (origin : StationId) : List Entry := t.entries.filter (fun e => decide (e.origin = origin))

/-! ### Notice queue -/

/-- CANDIDATE or SENDING (R71). -/
def QueueEntry.onLine (e : QueueEntry) : Bool := decide (e.state = .candidate) || decide (e.state = .sending)

/-- The slot of a channel's entry (R70). -/
def channelSlot (c : Channel) : Fin 15 := Fin.ofNat 15 c.val

/-- The slot of the REPLAY entry (R70). -/
def replaySlot : Fin 15 := 14

/-- The slots of ACK entries (R70). -/
def ackSlots : List (Fin 15) := [8, 9, 10, 11, 12, 13]

/-- The entry in a slot. -/
def slotEntry (slot : Fin 15) (q : List QueueEntry) : Option QueueEntry := q.find? (fun e => decide (e.slot = slot))

/-- The queue with the entry of a slot changed; its age order is kept (R72). -/
def updateSlot (slot : Fin 15) (f : QueueEntry → QueueEntry) (q : List QueueEntry) : List QueueEntry :=
  q.map (fun e => if e.slot = slot then f e else e)

/-- The queue with the entry of a slot retired (R70, R72). -/
def freeSlot (slot : Fin 15) (q : List QueueEntry) : List QueueEntry := q.filter (fun e => decide (e.slot ≠ slot))

/-- A new entry: WAITING, attempts 0, receipts empty, flags no. -/
def QueueEntry.fresh (slot : Fin 15) (notice : Notice) : QueueEntry :=
  { slot := slot, notice := notice, state := .waiting, restage := false, withdraw := false, attempts := 0, receipts := 0 }

/-- An entry started over: WAITING, attempts 0, receipts empty (R74, R76). -/
def QueueEntry.startOver (e : QueueEntry) : QueueEntry := { e with state := .waiting, attempts := 0, receipts := 0 }

/-- The entry on the line, if any. -/
def lineEntry (q : List QueueEntry) : Option QueueEntry := q.find? (·.onLine)

/-- Change staging of one channel (R74). -/
def stageChange (c : Channel) (q : List QueueEntry) : List QueueEntry :=
  match slotEntry (channelSlot c) q with
  | none => q ++ [QueueEntry.fresh (channelSlot c) (.channel c false)]
  | some _ =>
    updateSlot (channelSlot c)
      (fun e => if e.onLine then { e with restage := true, notice := .channel c false }
        else { e.startOver with notice := .channel c false }) q

/-- Re-announce staging of one channel (R75). -/
def stageReannounce (id : StationId) (t : Table) (c : Channel) (q : List QueueEntry) : List QueueEntry :=
  if (t.find id c).isSome && (slotEntry (channelSlot c) q).isNone then
    q ++ [QueueEntry.fresh (channelSlot c) (.channel c true)]
  else q

/-- Re-announce staging for channels 0 to 7 (R75). -/
def reannounceAll (id : StationId) (t : Table) (q : List QueueEntry) : List QueueEntry :=
  channelOrder.foldl (fun q c => stageReannounce id t c q) q

/-- REPLAY staging (R76). -/
def stageReplay (q : List QueueEntry) : List QueueEntry :=
  match slotEntry replaySlot q with
  | none => q ++ [QueueEntry.fresh replaySlot .replay]
  | some _ => updateSlot replaySlot QueueEntry.startOver q

/-- CHANNEL entries at the REPLAY staging: attempts 0, receipts empty, RESTING to WAITING (R76). -/
def QueueEntry.resetForReplay (e : QueueEntry) : QueueEntry :=
  match e.notice with
  | .channel _ _ => { e with attempts := 0, receipts := 0, state := if e.state = .resting then .waiting else e.state }
  | .ack _ _ _ _ | .replay => e

/-- An id taken out of the receipts of every entry (R95, R96). -/
def forgetReceipts (k : StationId) (q : List QueueEntry) : List QueueEntry :=
  q.map (fun e => { e with receipts := idMinus e.receipts (idBit k) })

/-- Every RESTING entry becomes WAITING at a mark (R88). -/
def wakeResting (q : List QueueEntry) : List QueueEntry :=
  q.map (fun e => if e.state = .resting then { e with state := .waiting } else e)

/-- Whether an entry is the ACK of a key. -/
def QueueEntry.acknowledges (e : QueueEntry) (origin : StationId) (channel : Channel) : Bool :=
  match e.notice with
  | .ack o c _ _ => decide (o = origin) && decide (c = channel)
  | .channel _ _ | .replay => false

/-- The lowest free ACK slot (R70). -/
def freeAckSlot (q : List QueueEntry) : Option (Fin 15) := ackSlots.find? (fun k => (slotEntry k q).isNone)

/-- ACK_SUPERSEDED for an ACK entry that is retired (R94). -/
def State.writeSuperseded (n : Notice) (s : State) : State :=
  match n with
  | .ack o c q _ => s.write (.ackSuperseded o c q) false
  | .channel _ _ | .replay => s

/-- The ACK entry of a key goes stale: retired at once off the line, flagged on the line (R93, R94). -/
def State.makeStale (origin : StationId) (channel : Channel) (s : State) : State :=
  match s.queue.find? (fun e => e.acknowledges origin channel) with
  | none => s
  | some e =>
    if e.onLine then { s with queue := updateSlot e.slot (fun e => { e with withdraw := true }) s.queue }
    else ({ s with queue := freeSlot e.slot s.queue } : State).writeSuperseded e.notice

/-- The ACK entries of several keys go stale, in the order the table handed the changes (R144; log entry 10). -/
def State.makeStaleAll (keys : List (StationId × Channel)) (s : State) : State :=
  keys.foldl (fun s k => s.makeStale k.1 k.2) s

/-- An outcome of a window (R84). -/
inductive WindowOutcome where
  | lost
  | abandoned
  | sent (receipts : IdSet)
deriving DecidableEq, Repr

/-- The required set: the census of the round without this station (R87). -/
def State.required (s : State) : IdSet := idMinus s.line.censusMap (idBit s.id)

/-- Step 1 of R85: the attempt and the receipts counted, this station's own id left out (R86). -/
def QueueEntry.counted (own : StationId) (o : WindowOutcome) (e : QueueEntry) : QueueEntry :=
  match o with
  | .lost => e
  | .abandoned => { e with attempts := e.attempts + 1 }
  | .sent map => { e with attempts := e.attempts + 1, receipts := e.receipts ||| idMinus map (idBit own) }

/-- The seq in the payload of the frame in flight: the record's seq at the last choice (R89). -/
def State.flightSeq (s : State) : Seq :=
  match s.line.window.bind (·.flight) with
  | some f => f.payload.extractLsb' 25 8
  | none => 0

/-- The REPLAY entry retired: JOIN_COMPLETE, then ACTIVE (R89, R160). -/
def State.joinComplete (missing : IdSet) (s : State) : State :=
  { s.write (.joinComplete missing) false with station := .active }

/-- What the retirement of a complete entry brings (R85 step 5, R89, R160). -/
def State.retireComplete (e : QueueEntry) (s : State) : State :=
  match e.notice with
  | .replay => s.joinComplete 0
  | .channel _ _ | .ack _ _ _ _ => s

/-- What a retirement with partial delivery writes (R85 step 7, R89). -/
def State.retirePartial (e : QueueEntry) (missing : IdSet) (s : State) : State :=
  match e.notice with
  | .channel c _ => s.write (.deliveryPartialChannel c s.flightSeq e.attempts missing) false
  | .ack o c q _ => s.write (.deliveryPartialAck o c q e.attempts missing) false
  | .replay => s.joinComplete missing

/-- Steps 2 to 7 of R85 on the entry that leaves the line, already counted. -/
def State.settle (o : WindowOutcome) (e : QueueEntry) (s : State) : State :=
  let keep : QueueEntry → State := fun e' => { s with queue := updateSlot e.slot (fun _ => e') s.queue }
  let freed : State := { s with queue := freeSlot e.slot s.queue }
  if e.withdraw then freed.writeSuperseded e.notice
  else if e.restage then keep { e.startOver with restage := false }
  else if o = .lost then keep { e with state := .waiting }
  else if idMinus s.required e.receipts = 0 then freed.retireComplete e
  else if e.attempts < s.image.retryLimit then keep { e with state := .resting }
  else freed.retirePartial e (idMinus s.required e.receipts)

/-- The queue takes the outcome of the entry on the line (R85). -/
def State.takeOutcome (o : WindowOutcome) (s : State) : State :=
  match lineEntry s.queue with
  | none => s
  | some e => s.settle o (e.counted s.id o)

/-- The entry on the line when the station leaves JOINING or ACTIVE (R97). `candidateAs` is how a CANDIDATE is taken: LOST,
or ABANDONED after its own line fault. A REPLAY entry taken as ABANDONED rests. -/
def State.freeze (candidateAs : WindowOutcome) (s : State) : State :=
  match lineEntry s.queue with
  | none => s
  | some e =>
    let o : WindowOutcome := if e.state = .sending then .abandoned else candidateAs
    if e.notice = .replay ∧ o ≠ .lost then
      { s with queue := updateSlot e.slot (fun e => { e with attempts := e.attempts + 1, state := .resting }) s.queue }
    else s.takeOutcome o

/-! ### Channel monitors -/

/-- A channel's monitor. -/
def State.monitor (s : State) (c : Channel) : Monitor := s.monitors[c]

/-- The state with a channel's monitor changed. -/
def State.setMonitor (c : Channel) (m : Monitor) (s : State) : State := { s with monitors := s.monitors.set c m c.isLt }

/-- The announcement record after an adoption of level `y` from level `x` (R28 to R31). -/
def Record.adopt (r : Record) (x y : Level) (value : Value) : Record :=
  { r with
    seq := r.seq + 1
    level := if y = .normal then x else y
    active := decide (y ≠ .normal)
    ackedBy := if x = .normal then none
      else if y ≠ .normal ∧ x.severity < y.severity then none
      else r.ackedBy
    value := value }

/-- The own-origin entry takes an adoption (R51). -/
def State.adoptEntry (c : Channel) (r : Record) (s : State) : State :=
  match s.table.find s.id c with
  | none => if r.active then s.addEntry (Entry.ofRecord s.id c r false s.line.round) else s
  | some e =>
    if !r.active && r.ackedBy.isSome then (s.clearEntry e r).makeStale s.id c
    else (s.changeEntry (e.overwrite r s.line.round)).makeStale s.id c

/-- An adoption: the record, the table, the staging (R28). `cause` is the fault cause with level FAULT, NONE otherwise. -/
def State.adopt (c : Channel) (y : Level) (cause : FaultCause) (s : State) : State :=
  let m := s.monitor c
  let r := m.record.adopt m.level y m.lastValue
  let s1 := s.setMonitor c { m with level := y, candidate := none, count := 0, faultCause := cause, record := r }
  let s2 := s1.adoptEntry c r
  { s2 with queue := stageChange c s2.queue }

/-- A value classified (R21 to R23, R26). -/
def State.classify (c : Channel) (s : State) : State :=
  let m := s.monitor c
  let k := s.image.channel c
  let target := targetLevel k m.level m.lastValue.toNat
  let p := persist m.level target m.candidate m.count
  let s1 := s.setMonitor c { m with candidate := p.1, count := p.2 }
  match p.1 with
  | some y => if p.2 = k.persistence then s1.adopt c y .none else s1
  | none => s1

/-- FAULT taken at once, or the cause changed in a channel already in FAULT (R24, R25). -/
def State.faultEvent (c : Channel) (cause : FaultCause) (s : State) : State :=
  if (s.monitor c).level = .fault then s.setMonitor c { s.monitor c with faultCause := cause } else s.adopt c .fault cause

/-- A sample arrival at an enabled channel (R20). -/
def State.sampleArrival (w : BitVec 16) (s : State) : State :=
  let c := wordChannel w
  let s1 := s.setMonitor c { s.monitor c with staleTimer := s.image.staleStart }
  if wordFault w then s1.faultEvent c .converter
  else (s1.setMonitor c { s1.monitor c with lastValue := wordValue w }).classify c

/-- A complete word offered to the monitors (R20). -/
def State.offerWord (w : BitVec 16) (s : State) : State :=
  if s.station.classifies && (s.image.channel (wordChannel w)).enable then s.sampleArrival w else s

/-- An acknowledgement reaches the record of an own channel (R33). -/
def State.ackRecord (c : Channel) (k : StationId) (s : State) : State :=
  s.setMonitor c { s.monitor c with record := { (s.monitor c).record with ackedBy := some k } }

/-! ### Roster -/

/-- A roster record. -/
def State.peer (s : State) (k : StationId) : Peer := s.roster[k]

/-- The state with a roster record changed. -/
def State.setPeer (k : StationId) (p : Peer) (s : State) : State := { s with roster := s.roster.set k p k.isLt }

/-- Whether the roster holds an id ABSENT. -/
def State.holdsAbsent (s : State) (k : StationId) : Bool := decide ((s.peer k).presence = .absent)

/-! ### Line engine -/

/-- The window's role becomes RECEIVER and its frame in flight is dropped (R128). -/
def Window.stopSending (w : Window) : Window := { w with role := .receiver, flight := none }

/-- The line released on leaving JOINING or ACTIVE: nothing is driven from the next bit time, the deferred mark is dropped,
the frame in flight is dropped (R1, R105, R111, R138). -/
def LineEngine.leave (l : LineEngine) : LineEngine :=
  { l with
    tx := [], deferredMark := false, ownMark := false
    window := l.window.map Window.stopSending
    sweep := l.sweep.map (fun p => { p with participant := false }) }

/-- The position is inside a round (R102). -/
def Position.inRound : Position → Bool
  | .round _ _ => true
  | .off | .seek | .idle => false

/-- The line is idle to the engine (R104). -/
def Position.lineIdle : Position → Bool
  | .seek | .idle => true
  | .off | .round _ _ => false

/-- A bit time read on the line, in the runs that supervise it (R101, R118); driven ones on the idle line count toward a mark
(R104). -/
def LineEngine.countBit (driven : Bool) (l : LineEngine) : LineEngine :=
  { l with
    drivenRun := if driven then l.drivenRun + 1 else 0
    releasedRun := if driven then 0 else l.releasedRun + 1
    idleRun := if driven && l.position.lineIdle then l.idleRun + 1 else 0 }

/-- The station follows a round (R1, R102). -/
def State.follows (s : State) : Bool := s.station.observes && s.line.position.inRound

/-- The engine starts its own 10-bit mark from the next bit time (R106). -/
def LineEngine.driveMark (l : LineEngine) : LineEngine :=
  { l with tx := List.replicate Config.markLength true, ownMark := true }

/-! ### Station controller -/

/-- LISTEN entered (R10, R156). -/
def State.enterListen (s : State) : State :=
  { s with
    station := .listen, cause := .none, listenCount := 0
    silenceTimer := some (Config.silencePeriods * s.image.period) }

/-- JOINING entered: the REPLAY staging, the CHANNEL entries reset, the re-announce staging (R11, R75, R76). -/
def State.enterJoining (s : State) : State :=
  { s with
    station := .joining, silenceTimer := none
    queue := reannounceAll s.id s.table ((stageReplay s.queue).map QueueEntry.resetForReplay) }

/-- What leaving JOINING or ACTIVE for QUIET or STUCK does to the queue and the line; nothing in other states (R13, R97). -/
def State.leaveGroup (candidateAs : WindowOutcome) (s : State) : State :=
  if s.station.participates then
    let s1 := s.freeze candidateAs
    { s1 with line := s1.line.leave }
  else s

/-- QUIET entered with a cause (R13). -/
def State.enterQuiet (cause : QuietCause) (candidateAs : WindowOutcome) (s : State) : State :=
  let s1 := s.leaveGroup candidateAs
  let s2 : State := { s1 with station := .quiet, cause := cause, silenceTimer := none }
  (s2.write (.stationQuiet cause) true).releaseLink

/-- STUCK entered from LISTEN, JOINING or ACTIVE; QUIET is kept (R16, R14). The queue and the line have been left. -/
def State.enterStuck (s : State) : State :=
  if s.station = .quiet then s
  else ({ s with station := .stuck, cause := .none, silenceTimer := none } : State).releaseLink

/-- Every block at its reset values; the image, the id, the port, the pins and the waiting commands as given by the caller
through `s` (R3, R17). The assembler waits for CFS to be released where it is found asserted (R19). -/
def State.resetBlocks (s : State) : State :=
  { State.reset with
    pending := s.pending, rst := s.rst, scsPin := s.scsPin, cfsPin := s.cfsPin
    grxAhead := s.grxAhead, bitTimes := s.bitTimes, id := s.id, image := s.image
    port := s.port
    assembler := { Assembler.reset with waiting := s.cfsPin } }

/-- The port as it leaves RST or power-on: IDLE with SCS released, BLOCKED with SCS asserted (R176). -/
def Port.afterReset (scs : Bool) : Port := { Port.reset with phase := if scs then .blocked else .idle }

/-- The reset that ends with RST released or at power-on: every block, the image's defaults, the id as strapped (R3, R4). -/
def State.resetAll (straps : BitVec 5) (s : State) : State :=
  { s.resetBlocks with
    rst := false, id := Fin.ofNat 32 straps.toNat, image := Image.default, port := Port.afterReset s.scsPin }

/-- A command has no effect while RST is asserted (R3: no sample word, no host transaction, nothing driven or read). -/
def State.unlessRst (s : State) (f : State → State) : State := if s.rst then s else f s

end Sys2Proof.Machine
end

