-- ==== Sys2Proof/Machine/TableRules.lean ====
section
/-! DEFINITION. What the condition table does with accepted frames and acknowledgements, how entries of an origin are removed,
and what the peer roster does with a census: chapters 03 and 07. -/

namespace Sys2Proof.Machine

/-! ### Creation and admission -/

/-- The victim removed to admit a newcomer (R62). -/
def State.evict (v : Entry) (s : State) : State :=
  (s.dropEntry v.origin v.channel).write (.entryEvicted v.origin v.channel v.level v.seq) false

/-- A newcomer refused room (R62). -/
def State.dropNewcomer (e : Entry) (s : State) : State :=
  ({ s with table := { s.table with drops := satInc s.table.drops } } : State).write
    (.noticeDropped e.origin e.channel e.level e.seq e.active e.acked) false

/-- The admission test on a newcomer to a full table (R61, R62). -/
def State.admitNewcomer (e : Entry) (s : State) : State :=
  match firstVictim (remoteEntries s.id s.table.entries) with
  | none => s.addEntry e
  | some v =>
    if admitted v e then ((s.evict v).addEntry e).makeStale v.origin v.channel else s.dropNewcomer e

/-- A remote entry created from a frame, subject to room (R43, R61, R65). -/
def State.createRemote (origin : StationId) (c : Channel) (r : Record) (s : State) : State :=
  let e := Entry.ofRecord origin c r (s.holdsAbsent origin) s.line.round
  if (remoteEntries s.id s.table.entries).length < Config.remotePlaces then s.addEntry e else s.admitNewcomer e

/-! ### Announcements (R54 to R56) -/

/-- A held entry overwritten from a newer frame (R53, R54, R55); the change of seq reaches the queue (R50, R93). -/
def State.overwriteEntry (e : Entry) (r : Record) (s : State) : State :=
  (s.changeEntry (e.overwrite r s.line.round)).makeStale e.origin e.channel

/-- An accepted RAISE, or STATE with active 1 (R54). -/
def State.applyRaise (origin : StationId) (c : Channel) (r : Record) (s : State) : State :=
  match s.table.find origin c with
  | none => s.createRemote origin c r
  | some e => if newer r.seq e.seq then s.overwriteEntry e r else s

/-- An accepted CLEAR, or STATE with active 0 (R55). -/
def State.applyClear (origin : StationId) (c : Channel) (r : Record) (s : State) : State :=
  match s.table.find origin c with
  | none => if r.ackedBy.isSome then s else s.createRemote origin c r
  | some e =>
    if newer r.seq e.seq then
      if r.ackedBy.isSome then (s.clearEntry e r).makeStale e.origin e.channel else s.overwriteEntry e r
    else s

/-- An accepted STATE: as a RAISE with active 1, as a CLEAR with active 0 (R56). -/
def State.applyState (origin : StationId) (c : Channel) (r : Record) (s : State) : State :=
  if r.active then s.applyRaise origin c r else s.applyClear origin c r

/-! ### Acknowledgements (R57, R58) -/

/-- An acknowledgement of an own-origin entry reaches the channel's record (R33). -/
def State.passAck (target : StationId) (c : Channel) (k : StationId) (s : State) : State :=
  if target = s.id then s.ackRecord c k else s

/-- An entry set ACTIVE_ACKED by station `k` (R57). -/
def State.setAcked (e : Entry) (k : StationId) (s : State) : State :=
  ((((s.storeEntry { e with ackedBy := some k, changedRound := s.line.round }).write
    (.entryAcked e.origin e.channel e.level e.seq k) false).handToAnnunciation e.origin)).passAck e.origin e.channel k

/-- A CLEARED_UNACKED entry removed by the ACK of station `k`; the ACK of another station makes this station's own ACK entry
stale (R57, R93). -/
def State.removeAcked (e : Entry) (k : StationId) (s : State) : State :=
  let s1 := (s.removeEntry e e.level e.seq .ackedAfterClear (some k)).passAck e.origin e.channel k
  if k = s1.id then s1 else s1.makeStale e.origin e.channel

/-- An ACK of station `k` applied to its target (R57). -/
def State.applyAck (k target : StationId) (c : Channel) (seq : Seq) (s : State) : State :=
  match s.table.find target c with
  | none => s
  | some e =>
    if e.seq = seq ∧ e.acked = false then
      if e.active then s.setAcked e k else s.removeAcked e k
    else s

/-! ### Removal of an origin's entries (R59, R66) -/

/-- Entries removed one after another for one reason. -/
def State.removeAll (es : List Entry) (reason : RemovalReason) (s : State) : State :=
  es.foldl (fun s e => s.removeEntry e e.level e.seq reason e.ackedBy) s

/-- The keys of a list of entries. -/
def keysOf (es : List Entry) : List (StationId × Channel) := es.map (fun e => (e.origin, e.channel))

/-- The queue's response to a REPLAY of another station (R95). -/
def State.answerReplay (origin : StationId) (s : State) : State :=
  { s with queue := reannounceAll s.id s.table (forgetReceipts origin s.queue) }

/-- Whether a REPLAY's parameters differ from the image (R143). -/
def Image.mismatches (i : Image) (groupSize : BitVec 6) (windows : BitVec 3) (period : BitVec 14) : Bool :=
  decide (groupSize.toNat ≠ i.groupSize) || decide (windows.toNat ≠ i.windows) || decide (period.toNat ≠ i.period)

/-- An accepted REPLAY of another station: CONFIG_MISMATCH, the removals, the response, the stale ACK entries (R59, R95, R143,
R144). -/
def State.applyReplay (origin : StationId) (groupSize : BitVec 6) (windows : BitVec 3) (period : BitVec 14) (s : State) :
    State :=
  let s1 := if s.image.mismatches groupSize windows period then
      s.write (.configMismatch origin groupSize windows period) false
    else s
  let es := s1.table.ofOrigin origin
  ((s1.removeAll es .rejoin).answerReplay origin).makeStaleAll (keysOf es)

/-- An accepted frame of another station applied by its kind (R52, R144). -/
def State.applyFrame (origin : StationId) (f : Frame) (s : State) : State :=
  match f with
  | .announcement .raise c r => s.applyRaise origin c r
  | .announcement .clear c r => s.applyClear origin c r
  | .announcement .state c r => s.applyState origin c r
  | .announcement .ack _ _ | .announcement .replay _ _ => s
  | .ack target c seq => s.applyAck origin target c seq
  | .replay groupSize windows period => s.applyReplay origin groupSize windows period

/-! ### The roster and the census (chapter 07) -/

/-- The orphaned field of an origin's entries set; the generation counts once for each entry given (R44, R64, R65). -/
def State.markOrphans (k : StationId) (orphaned : Bool) (touched : Nat) (s : State) : State :=
  { s with
    table := { s.table with
      entries := s.table.entries.map (fun e => if e.origin = k then { e with orphaned := orphaned } else e)
      generation := s.table.generation + BitVec.ofNat 16 touched } }

/-- A join of a peer (R151): un-orphaned, out of the receipts, PEER_JOINED. -/
def State.join (k : StationId) (s : State) : State :=
  let n := ((s.table.ofOrigin k).filter (·.orphaned)).length
  let s1 := s.markOrphans k false n
  ({ s1 with queue := forgetReceipts k s1.queue } : State).write (.peerJoined k n) false

/-- A leave of a peer (R152): orphaned, PEER_LEFT. -/
def State.peerLeaves (k : StationId) (s : State) : State :=
  let n := (s.table.ofOrigin k).length
  (s.markOrphans k true n).write (.peerLeft k n) false

/-- A slot read driven (R149). -/
def State.slotDriven (k : StationId) (s : State) : State :=
  let p := s.peer k
  let s1 := s.setPeer k { presence := .present, missed := 0, lastSeen := s.line.round }
  if p.presence = .absent ∧ k ≠ s.id then s1.join k else s1

/-- The count of missed censuses after a released slot (R150). -/
def missedAfter (limit missed : Nat) : Nat := if missed < limit then missed + 1 else limit

/-- A slot read released (R150). -/
def State.slotReleased (k : StationId) (s : State) : State :=
  let p := s.peer k
  let missed := missedAfter s.image.absenceLimit p.missed
  if p.presence = .present ∧ missed = s.image.absenceLimit then
    let s1 := s.setPeer k { p with presence := .absent, missed := missed }
    if k ≠ s.id then s1.peerLeaves k else s1
  else s.setPeer k { p with missed := missed }

/-- One record updated from the census map (R148). -/
def State.takeSlot (map : IdSet) (s : State) (k : StationId) : State :=
  if hasId map k then s.slotDriven k else s.slotReleased k

/-- The hand-off of a complete census to the roster: ids 0 to S − 1 in ascending order (R148). -/
def State.takeCensus (map : IdSet) (s : State) : State :=
  (stationIds.filter (fun k => decide (k.val < s.image.groupSize))).foldl (State.takeSlot map) s

end Sys2Proof.Machine
end

