-- ==== Sys2Proof/Machine/Frames.lean ====
section
/-! DEFINITION. The contest, the station's own frame, and the frames it receives (chapter 06). The bit at which an event falls
is an operand; it is the event of R131 or R135 only where the value this station sends in that bit makes it so (log
entries 3 and 4). -/

namespace Sys2Proof.Machine

/-- The position is inside a window under way (R114). -/
def Position.inWindow : Position → Bool
  | .round (.window _) _ => true
  | _ => false

/-- The engine past bit time `bit` of the window under way. -/
def LineEngine.pastBit (bit : Nat) (l : LineEngine) : LineEngine := { l with position := .round (.window l.windowsUsed) (bit + 1) }

/-- The receive register with the values read so far (R128). -/
def LineEngine.receive (register : List Bool) (l : LineEngine) : LineEngine :=
  match l.window with
  | none => l
  | some w => { l with window := some { w with received := register } }

/-- The window's role becomes RECEIVER, its flight is dropped, nothing more is driven (R132, R133, R135). -/
def LineEngine.stopSending (l : LineEngine) : LineEngine := { l with tx := [], window := l.window.map Window.stopSending }

/-- The frame this station is sending in a role, if it has that role and may drive (R1, R128). -/
def State.flightAs (role : Role) (s : State) : Option Flight :=
  if s.follows && s.station.participates then
    match s.line.window with
    | some w => if w.role = role ∧ w.sentWhole = false then w.flight else none
    | none => none
  else none

/-! ### The contest -/

/-- The values a station has read when bit `bit` reads other than it sent: its own before, the other value there. -/
def Flight.readUpTo (f : Flight) (bit : Nat) : List Bool := f.bits.take (bit - 1) ++ [!f.bitAt bit]

/-- A contender loses at a key bit it sends as 1 and reads driven (R131, R132). -/
def State.loseContest (bit : Nat) (s : State) : State :=
  match s.flightAs .contender with
  | none => s
  | some f =>
    if 1 ≤ bit ∧ bit ≤ 10 ∧ f.bitAt bit = true ∧ s.line.position.inWindow = true then
      let s1 := s.takeOutcome .lost
      { s1 with line := (((s1.line.receive (f.readUpTo bit)).stopSending).pastBit bit) }
    else s

/-- CONTEST_LOST (R132). -/
def execContestLost (bit : Nat) (s : State) : Host.Outcome State Fault Refusal :=
  .next (s.unlessRst (State.loseContest bit))

/-- The consecutive-abandon counter counts an abandonment (R129). -/
def State.countAbandon (s : State) : State := { s with line := { s.line with abandons := satInc s.line.abandons } }

/-- The counter stands at 3 or more (R12, R129). -/
def State.tooManyAbandons (s : State) : Bool := decide (Config.abandonLimit ≤ s.line.abandons.toNat)

/-- An abandonment of the station's own frame on account of the line: the queue and the controller take it in the order given
(R84, R90, R129). -/
def State.abandon (first : TakenFirst) (s : State) : State :=
  match first with
  | .owner =>
    let s1 := (s.takeOutcome .abandoned).countAbandon
    if s1.tooManyAbandons then s1.enterQuiet .txFault .lost else s1
  | .controller =>
    let s1 := s.countAbandon
    if s1.tooManyAbandons then s1.enterQuiet .txFault .abandoned else s1.takeOutcome .abandoned

/-- A line fault in the start bit: the window is empty (R113, R133). -/
def State.faultStartBit (first : TakenFirst) (s : State) : State :=
  let s1 := s.abandon first
  { s1 with line := { s1.line with window := none, tx := [] } }

/-- A line fault in a key bit: the station reads the rest of the window as a receiver (R133). -/
def State.faultKeyBit (f : Flight) (bit : Nat) (first : TakenFirst) (s : State) : State :=
  let s1 := s.abandon first
  { s1 with line := (((s1.line.receive (f.readUpTo bit)).stopSending).pastBit bit) }

/-- A contender reads released where it drove (R113, R131, R133). -/
def State.lineFault (bit : Nat) (first : TakenFirst) (s : State) : State :=
  match s.flightAs .contender with
  | none => s
  | some f =>
    if bit = 0 then (if s.line.position.inWindow then s else s.faultStartBit first)
    else if bit ≤ 10 ∧ f.bitAt bit = false ∧ s.line.position.inWindow = true then s.faultKeyBit f bit first
    else s

/-- LINE_FAULT_ABANDON (R133). -/
def execLineFaultAbandon (bit : Nat) (first : TakenFirst) (s : State) : Host.Outcome State Fault Refusal :=
  .next (s.unlessRst (State.lineFault bit first))

/-- The key won: SENDER, and the entry SENDING (R134). -/
def State.winKey (s : State) : State :=
  match s.flightAs .contender with
  | none => s
  | some f =>
    if s.line.position.inWindow then
      let l := (s.line.receive (msbBits f.key)).pastBit 10
      { s with
        queue := s.queue.map (fun e => if e.state = .candidate then { e with state := .sending } else e)
        line := { l with
          window := l.window.map (fun w => { w with role := .sender })
          tx := (msbBits f.payload ++ msbBits f.crc).map (!·) } }
    else s

/-- KEY_WON (R134). -/
def execKeyWon (s : State) : Host.Outcome State Fault Refusal := .next (s.unlessRst State.winKey)

/-! ### Sending -/

/-- A payload or CRC bit read other than sent (R135). -/
def State.readBackMismatch (bit : Nat) (first : TakenFirst) (s : State) : State :=
  match s.flightAs .sender with
  | none => s
  | some f =>
    if 11 ≤ bit ∧ bit ≤ 54 then
      let s1 := s.abandon first
      { s1 with line := (((s1.line.receive (f.readUpTo bit)).stopSending).pastBit bit) }
    else s

/-- READ_BACK_MISMATCH (R135). -/
def execReadBackMismatch (bit : Nat) (first : TakenFirst) (s : State) : Host.Outcome State Fault Refusal :=
  .next (s.unlessRst (State.readBackMismatch bit first))

/-- This station's own ACK applied to its own table at the end of its CRC (R58, R136). -/
def State.applyOwnFrame (f : Flight) (s : State) : State :=
  match NoticeKind.ofRank (f.key.toNat / 32 % 8), readAck f.payload with
  | some .ack, .ack target c seq => s.applyAck s.id target c seq
  | _, _ => s

/-- The engine at the end of a frame sent whole (R136). -/
def LineEngine.endFrame (f : Flight) (l : LineEngine) : LineEngine :=
  let l1 := (l.receive f.bits).pastBit 54
  { l1 with abandons := 0, tx := [], window := l1.window.map (fun w => { w with sentWhole := true }) }

/-- The end of the CRC without a mismatch (R136). -/
def State.sendWhole (s : State) : State :=
  match s.flightAs .sender with
  | none => s
  | some f => ({ s with line := s.line.endFrame f } : State).applyOwnFrame f

/-- FRAME_SENT_WHOLE (R136). -/
def execFrameSentWhole (s : State) : Host.Outcome State Fault Refusal := .next (s.unlessRst State.sendWhole)

/-- The window's role is SENDER and its frame went out whole (R137). -/
def LineEngine.awaitsReceipts (l : LineEngine) : Bool :=
  match l.window with
  | some w => decide (w.role = .sender) && w.sentWhole
  | none => false

/-- The engine past the last receipt slot (R137): the sender's role is over, and the window closes with its gap. -/
def LineEngine.endReceipts (size : Nat) (l : LineEngine) : LineEngine := l.stopSending.pastBit (56 + size)

/-- The receipt field is still to end: the frame is over and the closing gap has not begun (R114). -/
def Position.beforeClosingGap (size : Nat) : Position → Bool
  | .round (.window _) b => decide (55 ≤ b ∧ b ≤ 57 + size)
  | _ => false

/-- The last receipt slot: the sender hands SENT with the receipt map (R137); the window goes on for every station. -/
def State.finishReceipts (slots : IdSet) (s : State) : State :=
  if s.follows && s.line.position.beforeClosingGap s.image.groupSize && s.line.window.isSome then
    if s.line.awaitsReceipts && s.station.participates then
      let s1 := s.takeOutcome (.sent (slots &&& slotMask s.image.groupSize))
      { s1 with line := s1.line.endReceipts s1.image.groupSize }
    else if (lineEntry s.queue).isNone then
      { s with line := s.line.endReceipts s.image.groupSize }
    else s
  else s

/-- RECEIPT_FIELD_END (R137, R85). -/
def execReceiptFieldEnd (slots : IdSet) (s : State) : Host.Outcome State Fault Refusal :=
  .next (s.unlessRst (State.finishReceipts slots))

/-! ### Receiving -/

/-- The station may judge the frame of the window under way: it reads as a receiver and has not judged it (R139). -/
def State.readsFrame (s : State) : Bool :=
  s.follows && s.line.position.inWindow &&
    match s.line.window with
    | some w => decide (w.role = .receiver) && w.judgement.isNone && !w.sentWhole
    | none => false

/-- The judgement of the window set (R128). -/
def State.judged (j : Judgement) (s : State) : State :=
  { s with line := { s.line with window := s.line.window.map (fun w => { w with judgement := some j }) } }

/-- An accepted frame: the clash path for the own id, else applied (R142, R144). -/
def State.takeFrame (origin : StationId) (f : Frame) (s : State) : State :=
  if origin = s.id then
    if s.station = .quiet then s else s.enterQuiet .idClash .lost
  else s.applyFrame origin f

/-- What a verdict does (R140, R141). -/
def State.takeVerdict (v : Verdict) (s : State) : State :=
  match v with
  | .crcError =>
    let s1 := s.judged .rejected
    { s1 with line := { s1.line with crcErrors := satInc s1.line.crcErrors } }
  | .malformed =>
    let s1 := s.judged .rejected
    { s1 with line := { s1.line with malformed := satInc s1.line.malformed } }
  | .accepted origin f => (s.judged .accepted).takeFrame origin f

/-- Bit time 54 at a receiver (R139, R140). -/
def State.judge (read : BitVec 54) (s : State) : State :=
  if s.readsFrame then
    ({ s with line := (s.line.receive (msbBits read)).pastBit 54 } : State).takeVerdict (judgeFrame read)
  else s

/-- FRAME_JUDGED (R139 to R144). -/
def execFrameJudged (read : BitVec 54) (s : State) : Host.Outcome State Fault Refusal :=
  .next (s.unlessRst (State.judge read))

/-- The window's frame was judged ACCEPTED. -/
def LineEngine.accepted (l : LineEngine) : Bool :=
  match l.window with
  | some w => decide (w.judgement = some .accepted)
  | none => false

/-- The own receipt slot is not past: bit time 57 + k of the window (R114). -/
def Position.beforeSlot (k : StationId) : Position → Bool
  | .round (.window _) b => decide (55 ≤ b ∧ b ≤ 57 + k.val)
  | _ => false

/-- The own receipt slot: driven by a JOINING or ACTIVE station that accepted the frame (R145). -/
def State.driveReceipt (s : State) : State :=
  if s.follows && s.station.participates && s.line.position.beforeSlot s.id && s.line.accepted then
    { s with line := { s.line with position := .round (.window s.line.windowsUsed) (57 + s.id.val), tx := [true] } }
  else s

/-- RECEIPT_SLOT (R145). -/
def execReceiptSlot (s : State) : Host.Outcome State Fault Refusal := .next (s.unlessRst State.driveReceipt)

end Sys2Proof.Machine
end

