-- ==== Sys2Proof/Machine/Requests.lean ====
section
/-! DEFINITION. What each host request does when it is taken, and its answer: the checks in the order of R177, the effect in
the owning block, the status and the data bytes (chapters 01, 03, 04, 09, 10, 12). -/

namespace Sys2Proof.Machine

/-- The outcome of a request: the station after it, the status, the data bytes the status defines. -/
structure Reply where
  state : State
  status : Status
  data : List Byte

/-- A refusal changes nothing (R177). -/
def State.refuse (s : State) (status : Status) : Reply := { state := s, status := status, data := [] }

/-- An answer that changes nothing. -/
def State.answer (s : State) (data : List Byte) : Reply := { state := s, status := .ok, data := data }

/-- A request carried out. -/
def State.done (s : State) : Reply := { state := s, status := .ok, data := [] }

/-! ### The station -/

/-- STATUS (R178). -/
def serveStatus (s : State) : Reply :=
  s.answer ([s.station.code, s.cause.code, s.line.lineState.code] ++ bytes16 s.line.round ++
    [byteOf s.table.entries.length] ++ bytes16 s.table.generation ++
    [byteOf s.queue.length, byteOf s.feed.records.length] ++ bytes16 s.feed.gap)

/-- The image with an item stored; the feed judges IRQ afresh when it is the watermark (R5, R197). -/
def State.storeItem (item : Item) (value : Nat) (s : State) : State :=
  let i := s.image.write item value
  { s with image := i, feed := if item = .watermark then s.feed.judge i.watermark else s.feed }

/-- CONFIG_WRITE (R6, R179, R203). -/
def serveConfigWrite (item : Byte) (value : BitVec 16) (s : State) : Reply :=
  if s.station ≠ .setup then s.refuse .badState
  else
    match Item.ofNumber item.toNat with
    | none => s.refuse .badItem
    | some .stationId => s.refuse .badItem
    | some i => if i.inRange value.toNat then (s.storeItem i value.toNat).done else s.refuse .badValue

/-- CONFIG_READ (R7, R179, R203). -/
def serveConfigRead (item : Byte) (s : State) : Reply :=
  match Item.ofNumber item.toNat with
  | none => s.refuse .badItem
  | some i => s.answer (bytes16 (BitVec.ofNat 16 (s.image.read s.id i)))

/-- The stale timer of a monitor at START: running for an enabled channel unless the limit is 0 (R9, R25). -/
def State.startTimer (s : State) (c : Channel) : State :=
  if (s.image.channel c).enable then s.setMonitor c { s.monitor c with staleTimer := s.image.staleStart } else s

/-- An accepted START: the image sealed, the timers started, the engine in SEEK, LISTEN entered (R9, R121). -/
def State.startUp (s : State) : State :=
  let s1 := channelOrder.foldl State.startTimer s
  ({ s1 with
     isSealed := true
     line := { s1.line with position := .seek, drivenRun := 0, releasedRun := 0, idleRun := 0 } } : State).enterListen

/-- START (R8, R9, R180). -/
def serveStart (s : State) : Reply :=
  if s.station ≠ .setup then s.refuse .badState
  else
    match s.image.failingItem s.id with
    | some i => { state := s, status := .configInvalid, data := [byteOf i.number] }
    | none => s.startUp.done

/-- RESTART: every block but the image and the id; the port ends its transaction first (R17, R176, R180). -/
def serveRestart (s : State) : Reply :=
  let r := s.resetBlocks
  ({ r with port := { s.port with restartPending := true } } : State).done

/-- QUIET (R13, R14, R181). -/
def serveQuiet (s : State) : Reply :=
  match s.station with
  | .setup => s.refuse .badState
  | .quiet => s.done
  | .listen | .joining | .active | .stuck => (s.enterQuiet .host .lost).done

/-- RESUME (R15). -/
def serveResume (s : State) : Reply :=
  if s.station ≠ .quiet then s.refuse .badState
  else
    match s.line.lineState with
    | .up => s.enterListen.done
    | .stuck => ({ s with station := .stuck, cause := .none } : State).done

/-! ### The condition table -/

/-- VIEW (R47, R182). -/
def serveView (rank : Byte) (s : State) : Reply :=
  match (viewOrder s.table.entries)[rank.toNat]? with
  | some e => s.answer (e.bytes ++ bytes16 s.table.generation)
  | none => { state := s, status := .none, data := List.replicate 12 absentByte ++ bytes16 s.table.generation }

/-- ENTRY (R47, R182). -/
def serveEntry (origin channel : Byte) (s : State) : Reply :=
  if 31 < origin.toNat ∨ 7 < channel.toNat then s.refuse .badValue
  else
    match s.table.find (Fin.ofNat 32 origin.toNat) (Fin.ofNat 8 channel.toNat) with
    | some e => s.answer (e.bytes ++ bytes16 s.table.generation)
    | none => s.refuse .noSuchEntry

/-- The checks of an ACK request against the table and the queue (R78), and the entry it creates (R79). -/
def State.requestAck (o : StationId) (c : Channel) (seq : Seq) (s : State) : Reply :=
  match s.table.find o c with
  | none => s.refuse .noSuchEntry
  | some e =>
    if e.seq ≠ seq then s.refuse .staleSeq
    else if e.acked then s.refuse .alreadyAcked
    else if s.queue.any (fun q => q.acknowledges o c) then s.refuse .ackPending
    else
      match freeAckSlot s.queue with
      | none => s.refuse .ackLimit
      | some slot =>
        { state := { s with queue := s.queue ++ [QueueEntry.fresh slot (.ack o c seq e.severity)] }
          status := .ok, data := [byteOf slot.val] }

/-- ACK (R78, R79, R183). -/
def serveAck (origin channel seq : Byte) (s : State) : Reply :=
  if s.station = .setup then s.refuse .badState
  else if 31 < origin.toNat ∨ 7 < channel.toNat then s.refuse .badValue
  else s.requestAck (Fin.ofNat 32 origin.toNat) (Fin.ofNat 8 channel.toNat) seq

/-- The shelved flag of a channel set, with the effects of R36 when it changes while an own-origin entry is held. -/
def State.setShelved (c : Channel) (flag : Bool) (s : State) : State :=
  let m := s.monitor c
  if m.record.shelved = flag then s
  else
    match s.table.find s.id c with
    | none => s.setMonitor c { m with record := { m.record with shelved := flag } }
    | some e =>
      let r : Record := { m.record with shelved := flag, seq := m.record.seq + 1, value := m.lastValue }
      let s1 := s.setMonitor c { m with record := r }
      let s2 := (s1.changeEntry
        { e with shelved := flag, seq := r.seq, value := r.value, changedRound := s.line.round }).makeStale s.id c
      { s2 with queue := stageChange c s2.queue }

/-- The checks SHELVE and UNSHELVE share (R35). -/
def serveShelving (channel : Byte) (flag : Bool) (s : State) : Reply :=
  if s.station = .setup then s.refuse .badState
  else if 7 < channel.toNat then s.refuse .badValue
  else (s.setShelved (Fin.ofNat 8 channel.toNat) flag).done

/-- SHELVE (R35, R36, R183). -/
def serveShelve (channel : Byte) (s : State) : Reply := serveShelving channel true s

/-- UNSHELVE (R35, R36, R183). -/
def serveUnshelve (channel : Byte) (s : State) : Reply := serveShelving channel false s

/-- An origin's entries purged, and the ACK entries made stale after the table's records (R66, R94). -/
def State.purge (o : StationId) (s : State) : State :=
  let es := s.table.ofOrigin o
  (s.removeAll es .purge).makeStaleAll (keysOf es)

/-- PURGE (R66, R183). -/
def servePurge (origin : Byte) (s : State) : Reply :=
  let o : StationId := Fin.ofNat 32 origin.toNat
  if s.station = .setup then s.refuse .badState
  else if 31 < origin.toNat then s.refuse .badValue
  else if o = s.id then s.refuse .ownOrigin
  else if (s.peer o).presence = .present then s.refuse .originPresent
  else { state := s.purge o, status := .ok, data := [byteOf (s.table.ofOrigin o).length] }

/-! ### The feed -/

/-- FEED_PEEK (R184). -/
def serveFeedPeek (s : State) : Reply :=
  match s.feed.records with
  | r :: _ => s.answer r.bytes
  | [] => s.refuse .feedEmpty

/-- FEED_RELEASE (R185, R195). -/
def serveFeedRelease (count : Byte) (s : State) : Reply :=
  if count.toNat = 0 ∨ 32 < count.toNat then s.refuse .badValue
  else
    { state := { s with feed := s.feed.release s.image.watermark s.line.round count.toNat }
      status := .ok, data := [byteOf (min count.toNat s.feed.records.length)] }

/-! ### Diagnostic reads -/

/-- ROSTER (R155, R186). -/
def serveRoster (id : Byte) (s : State) : Reply :=
  if 31 < id.toNat then s.refuse .badValue
  else
    let p := s.peer (Fin.ofNat 32 id.toNat)
    s.answer ([p.presence.code, byteOf p.missed] ++ bytes16 p.lastSeen)

/-- The kind a CHANNEL entry sends for a record (R82). -/
def Record.kindToSend (r : Record) (stateOnly : Bool) : NoticeKind :=
  match stateOnly, r.active, r.ackedBy.isSome with
  | false, true, _ => .raise
  | false, false, _ => .clear
  | true, true, _ => .state
  | true, false, false => .state
  | true, false, true => .clear

/-- The class and the class's bytes of a queue entry: class, channel, target origin, target channel, target seq, ack severity,
kind if chosen now (R200, R201). -/
def State.noticeBytes (n : Notice) (s : State) : Byte × List Byte :=
  match n with
  | .channel c stateOnly =>
    (0, [byteOf c.val, absentByte, absentByte, absentByte, absentByte,
      byteOf ((s.monitor c).record.kindToSend stateOnly).rank])
  | .ack o c q severity => (1, [absentByte, byteOf o.val, byteOf c.val, q, byteOf severity, absentByte])
  | .replay => (2, List.replicate 6 absentByte)

/-- The state_only bit of a notice, as the flags byte of QUEUE sends it. Only a CHANNEL entry has the field (R69); the spec
gives no value of the bit for the other classes. DESIGN CHOICE (log entry 24): 0, like an unnamed bit (R200). -/
def Notice.stateOnly : Notice → Bool
  | .channel _ b => b
  | .ack _ _ _ _ | .replay => false

/-- A queue entry in a response, 16 bytes; staged_order is its place in age order (R72, R99, R201). -/
def State.queueBytes (e : QueueEntry) (s : State) : List Byte :=
  let n := s.noticeBytes e.notice
  [n.1, e.state.code, flagBit e.notice.stateOnly 7 ||| flagBit e.restage 6 ||| flagBit e.withdraw 5, byteOf e.attempts,
   byteOf (s.queue.findIdx (fun f => decide (f.slot = e.slot)))] ++ n.2 ++ bytes32 e.receipts ++ [absentByte]

/-- QUEUE (R99, R186). -/
def serveQueue (slot : Byte) (s : State) : Reply :=
  if 14 < slot.toNat then s.refuse .badValue
  else
    match slotEntry (Fin.ofNat 15 slot.toNat) s.queue with
    | some e => s.answer (s.queueBytes e)
    | none => s.refuse .none

/-- CHANNEL (R186). -/
def serveChannel (channel : Byte) (s : State) : Reply :=
  if 7 < channel.toNat then s.refuse .badValue
  else
    let c : Channel := Fin.ofNat 8 channel.toNat
    s.answer ((s.monitor c).bytes (s.image.channel c).enable)

/-- COUNTERS_READ (R187). -/
def serveCountersRead (s : State) : Reply :=
  s.answer (bytes16 s.framingErrors ++ bytes16 s.table.drops ++ bytes16 s.line.crcErrors ++ bytes16 s.line.malformed ++
    [s.line.abandons] ++ bytes16 s.port.aborts ++
    [s.line.position.code, s.line.sweepResult.setWidth 8, s.ann.own.setWidth 8, byteOfBool s.ann.link,
     s.ann.code.setWidth 8])

/-- COUNTERS_CLEAR (R188). -/
def serveCountersClear (s : State) : Reply :=
  ({ s with
     framingErrors := 0
     table := { s.table with drops := 0 }
     line := { s.line with crcErrors := 0, malformed := 0, abandons := 0 }
     port := { s.port with aborts := 0 } } : State).done

end Sys2Proof.Machine
end

