-- ==== Sys2Proof/Machine/Port.lean ====
section
/-! DEFINITION. The host port: SPI mode 0 bit by bit, phases, the taking of a request, and the commands that come through it
(chapter 09). A host command of the table stands for its bytes on SDI, command byte first; what those bytes do depends on the
phase, and SCS_RELEASED carries the bits of a request cut short (log entry 12). -/

namespace Sys2Proof.Machine

/-- The request of a command with its argument bytes, as the owning block takes it (R172, R173). -/
def serve (c : HostCommand) (args : List Byte) (s : State) : Reply :=
  let a := args.getD 0 0
  let b := args.getD 1 0
  let d := args.getD 2 0
  match c with
  | .status => serveStatus s
  | .configWrite => serveConfigWrite a (b ++ d) s
  | .configRead => serveConfigRead a s
  | .start => serveStart s
  | .restart => serveRestart s
  | .quiet => serveQuiet s
  | .resume => serveResume s
  | .view => serveView a s
  | .entry => serveEntry a b s
  | .ack => serveAck a b d s
  | .shelve => serveShelve a s
  | .unshelve => serveUnshelve a s
  | .purge => servePurge a s
  | .feedPeek => serveFeedPeek s
  | .feedRelease => serveFeedRelease a s
  | .roster => serveRoster a s
  | .queue => serveQueue a s
  | .channel => serveChannel a s
  | .countersRead => serveCountersRead s
  | .countersClear => serveCountersClear s

/-- The response bytes of a reply: status, data, FFh up to the command's fixed length (R174). -/
def Reply.response (r : Reply) (length : Nat) : List Byte := padded length (r.status.code :: r.data)

/-- The port with a response to send (R173). -/
def Port.respond (p : Port) (response : List Byte) : Port := { p with phase := .response, response := response, sent := 0 }

/-- A request taken: the block carries it out and the response is formed in the same event (R173). -/
def State.takeRequest (c : HostCommand) (args : List Byte) (s : State) : State :=
  let r := serve c args { s with port := { s.port with command := some c, args := args } }
  { r.state with port := r.state.port.respond (r.response c.responseLength) }

/-- The command byte whole (R172). -/
def State.takeCommandByte (b : Byte) (s : State) : State :=
  match HostCommand.ofCode b with
  | none => { s with port := s.port.respond [Status.badCommand.code] }
  | some c =>
    if c.argCount = 0 then s.takeRequest c []
    else { s with port := { s.port with phase := .arguments, command := some c, args := [] } }

/-- An argument byte whole (R172). -/
def State.takeArgumentByte (b : Byte) (s : State) : State :=
  match s.port.command with
  | none => s
  | some c =>
    let args := s.port.args ++ [b]
    if c.argCount ≤ args.length then s.takeRequest c args
    else { s with port := { s.port with args := args } }

/-- A byte taken whole in COMMAND or ARGUMENTS (R172). -/
def State.takeByte (b : Byte) (s : State) : State :=
  match s.port.phase with
  | .command => s.takeCommandByte b
  | .arguments => s.takeArgumentByte b
  | .idle | .response | .spent | .blocked => s

/-- A bit taken from SDI in COMMAND or ARGUMENTS; the eighth makes a byte (R171). -/
def State.takeBit (bit : Bool) (s : State) : State :=
  let shifted := shiftIn s.port.shift bit
  if s.port.bits = 7 then ({ s with port := { s.port with shift := 0, bits := 0 } } : State).takeByte shifted
  else { s with port := { s.port with shift := shifted, bits := s.port.bits + 1 } }

/-- A bit of the response sent; after the last the phase is SPENT (R170, R174). -/
def Port.sendBit (p : Port) : Port :=
  { p with sent := p.sent + 1, phase := if 8 * p.response.length ≤ p.sent + 1 then .spent else .response }

/-- One SCK cycle with a bit on SDI (R171). -/
def State.clockBit (s : State) (bit : Bool) : State :=
  match s.port.phase with
  | .command | .arguments => s.takeBit bit
  | .response => { s with port := s.port.sendBit }
  | .idle | .spent | .blocked => s

/-- Bits clocked in, in their order (R171). -/
def State.clockBits (s : State) (bits : List Bool) : State := bits.foldl State.clockBit s

/-- A byte clocked in, most significant bit first (R171). -/
def State.clockByte (s : State) (b : Byte) : State := s.clockBits (msbBits b)

/-- The bytes of a host command clocked in, unless RST is asserted (R172, R176). -/
def State.clockRequest (bytes : List Byte) (s : State) : State := s.unlessRst (fun s => bytes.foldl State.clockByte s)

/-! ### The commands of the host port -/

/-- SCS_ASSERTED: a transaction opens in IDLE (R170, R171). -/
def execScsAsserted (s : State) : Host.Outcome State Fault Refusal :=
  let s1 : State := { s with scsPin := true }
  .next (s1.unlessRst (fun s =>
    if s.port.phase = .idle then { s with port := { Port.reset with phase := .command, aborts := s.port.aborts } } else s))

/-- The port when SCS is released (R170, R175, R176). -/
def Port.release (p : Port) : Port :=
  match p.phase with
  | .command | .arguments => { Port.reset with aborts := satInc p.aborts }
  | .response | .spent => if p.restartPending then Port.reset else { Port.reset with aborts := p.aborts }
  | .blocked => { Port.reset with aborts := p.aborts }
  | .idle => p

/-- SCS_RELEASED: the bits clocked since the last whole byte that a command told, then the release (R170, R171, R175, R176). -/
def execScsReleased (s : State) (bits : List Bool := []) : Host.Outcome State Fault Refusal :=
  let s1 : State := { s with scsPin := false }
  .next (s1.unlessRst (fun s =>
    let s2 := s.clockBits bits
    { s2 with port := s2.port.release }))

/-- BAD_COMMAND: one byte that names no command (R172). -/
def execBadCommand (code : Byte) (s : State) : Host.Outcome State Fault Refusal := .next (s.clockRequest [code])

/-- STATUS (R178). -/
def execStatus (s : State) : Host.Outcome State Fault Refusal := .next (s.clockRequest [HostCommand.status.code])

/-- CONFIG_WRITE: item, value high, value low (R6, R179). -/
def execConfigWrite (item : Byte) (value : BitVec 16) (s : State) : Host.Outcome State Fault Refusal :=
  .next (s.clockRequest [HostCommand.configWrite.code, item, value.extractLsb' 8 8, value.extractLsb' 0 8])

/-- CONFIG_READ (R7, R179). -/
def execConfigRead (item : Byte) (s : State) : Host.Outcome State Fault Refusal :=
  .next (s.clockRequest [HostCommand.configRead.code, item])

/-- START (R8, R180). -/
def execStart (s : State) : Host.Outcome State Fault Refusal := .next (s.clockRequest [HostCommand.start.code])

/-- RESTART (R17, R180). -/
def execRestart (s : State) : Host.Outcome State Fault Refusal := .next (s.clockRequest [HostCommand.restart.code])

/-- QUIET (R181). -/
def execQuiet (s : State) : Host.Outcome State Fault Refusal := .next (s.clockRequest [HostCommand.quiet.code])

/-- RESUME (R15). -/
def execResume (s : State) : Host.Outcome State Fault Refusal := .next (s.clockRequest [HostCommand.resume.code])

/-- VIEW (R47). -/
def execView (rank : Byte) (s : State) : Host.Outcome State Fault Refusal :=
  .next (s.clockRequest [HostCommand.view.code, rank])

/-- ENTRY (R47). -/
def execEntry (origin channel : Byte) (s : State) : Host.Outcome State Fault Refusal :=
  .next (s.clockRequest [HostCommand.entry.code, origin, channel])

/-- ACK (R78). -/
def execAck (origin channel seq : Byte) (s : State) : Host.Outcome State Fault Refusal :=
  .next (s.clockRequest [HostCommand.ack.code, origin, channel, seq])

/-- SHELVE (R35). -/
def execShelve (channel : Byte) (s : State) : Host.Outcome State Fault Refusal :=
  .next (s.clockRequest [HostCommand.shelve.code, channel])

/-- UNSHELVE (R35). -/
def execUnshelve (channel : Byte) (s : State) : Host.Outcome State Fault Refusal :=
  .next (s.clockRequest [HostCommand.unshelve.code, channel])

/-- PURGE (R66). -/
def execPurge (origin : Byte) (s : State) : Host.Outcome State Fault Refusal :=
  .next (s.clockRequest [HostCommand.purge.code, origin])

/-- FEED_PEEK (R184). -/
def execFeedPeek (s : State) : Host.Outcome State Fault Refusal := .next (s.clockRequest [HostCommand.feedPeek.code])

/-- FEED_RELEASE (R195). -/
def execFeedRelease (count : Byte) (s : State) : Host.Outcome State Fault Refusal :=
  .next (s.clockRequest [HostCommand.feedRelease.code, count])

/-- ROSTER (R155). -/
def execRoster (id : Byte) (s : State) : Host.Outcome State Fault Refusal :=
  .next (s.clockRequest [HostCommand.roster.code, id])

/-- QUEUE (R99). -/
def execQueue (slot : Byte) (s : State) : Host.Outcome State Fault Refusal :=
  .next (s.clockRequest [HostCommand.queue.code, slot])

/-- CHANNEL (R186). -/
def execChannel (channel : Byte) (s : State) : Host.Outcome State Fault Refusal :=
  .next (s.clockRequest [HostCommand.channel.code, channel])

/-- COUNTERS_READ (R187). -/
def execCountersRead (s : State) : Host.Outcome State Fault Refusal :=
  .next (s.clockRequest [HostCommand.countersRead.code])

/-- COUNTERS_CLEAR (R188). -/
def execCountersClear (s : State) : Host.Outcome State Fault Refusal :=
  .next (s.clockRequest [HostCommand.countersClear.code])

end Sys2Proof.Machine
end

