-- ==== Sys2Proof/Machine/Resets.lean ====
section
/-! DEFINITION. Power-on and RST (R3, R4, R19, R176, R199). -/

namespace Sys2Proof.Machine

/-- POWER_ON: the power-on reset ends; the same effect as RST in every block, with SCS and CFS as they are found (R3, R4,
R19, R176). DESIGN CHOICE (log entry 7): RST is taken as found released, also where it was asserted before. -/
def execPowerOn (straps : BitVec 5) (scs cfs : Bool) (s : State) : Host.Outcome State Fault Refusal :=
  .next (({ s with scsPin := scs, cfsPin := cfs } : State).resetAll straps)

/-- RST asserted: the outputs released, the line released at once and the frame in flight cut, the host transaction and the
bits of an open sample frame discarded, IRQ released, the station in SETUP (R1, R3, R19, R167, R176, R197). The other blocks
take their reset values when RST is released (R3; log entry 7). -/
def State.assertRst (s : State) : State :=
  ({ s with
     rst := true, station := .setup, cause := .none, silenceTimer := none
     assembler := { Assembler.reset with waiting := s.cfsPin }
     line := { s.line with tx := [], deferredMark := false, ownMark := false, window := none, sweep := none }
     port := Port.reset
     feed := { s.feed with irq := false } } : State).releaseLink

/-- RST_ASSERTED (R3); while RST is asserted already, nothing changes. -/
def execRstAsserted (s : State) : Host.Outcome State Fault Refusal := .next (s.unlessRst State.assertRst)

/-- RST_RELEASED: every block takes its reset values, the image its defaults, the id is sampled (R3, R4). -/
def execRstReleased (straps : BitVec 5) (s : State) : Host.Outcome State Fault Refusal := .next (s.resetAll straps)

end Sys2Proof.Machine
end

