-- ==== Sys2Proof/Machine/Rounds.lean ====
section
/-! DEFINITION. Rounds on the group line: timers, marks, census, sweep, windows, end of the round, line supervision (chapters
05, 07, 08). An event whose condition does not hold in the state is no event: nothing changes (log entry 3). A command tells
that its event has come, and passes the bit times up to it in which this station reads nothing (log entries 25 and 26). -/

namespace Sys2Proof.Machine

/-! ### Timers and marks -/

/-- The round timer runs out (R105). DESIGN CHOICE (log entry 25): the command is the expiry, whatever time is left. -/
def State.roundExpiry (s : State) : State :=
  if s.line.roundTimer.isSome then
    let l := { s.line with roundTimer := none }
    if s.station.participates then
      if l.position.inRound then { s with line := { l with deferredMark := true } }
      else if l.position.lineIdle then { s with line := l.driveMark }
      else { s with line := l }
    else { s with line := l }
  else s

/-- ROUND_TIMER_EXPIRY (R105, R106). -/
def execRoundTimerExpiry (s : State) : Host.Outcome State Fault Refusal := .next (s.unlessRst State.roundExpiry)

/-- The silence timer runs out in LISTEN: lone start (R158). The round timer expires P bit times after the first driven bit
time, which is the next. DESIGN CHOICE (log entry 25): the command is the expiry, whatever time is left. -/
def State.loneStart (s : State) : State :=
  if s.station = .listen ∧ s.silenceTimer.isSome = true ∧ s.line.position.lineIdle = true then
    let s1 := s.enterJoining
    { s1 with line := { s1.line.driveMark with roundTimer := some s1.image.period } }
  else s

/-- SILENCE_TIMER_EXPIRY (R158). -/
def execSilenceTimerExpiry (s : State) : Host.Outcome State Fault Refusal := .next (s.unlessRst State.loneStart)

/-- A mark recognised: the seven steps of R104. The run stands at 8 at least; the bit times count it (R118; log entry 25). -/
def State.recogniseMark (s : State) : State :=
  if s.station.observes && s.line.position.lineIdle then
    { s with
      line := { s.line with
        roundTimer := some (s.image.period - Config.markRecognition)
        deferredMark := false, ownMark := false
        round := s.line.round + 1
        censusMap := 0
        position := .round .mark Config.markRecognition
        sweep := none, window := none, windowsUsed := 0
        drivenRun := max Config.markRecognition s.line.drivenRun, releasedRun := 0, idleRun := 0 }
      queue := wakeResting s.queue
      silenceTimer := if s.station = .listen then some (Config.silencePeriods * s.image.period) else s.silenceTimer }
  else s

/-- MARK_RECOGNISED (R104, R88, R108). -/
def execMarkRecognised (s : State) : Host.Outcome State Fault Refusal := .next (s.unlessRst State.recogniseMark)

/-- The 10 bit times of an own mark are over and no mark was recognised: the round timer restarts from the first of them
(R106). -/
def State.missOwnMark (s : State) : State :=
  if s.line.ownMark && s.line.position.lineIdle && s.station.participates then
    { s with
      line := { s.line with
        roundTimer := some (s.image.period - Config.markLength), ownMark := false, tx := [] } }
  else s

/-- MARK_UNRECOGNISED (R106). -/
def execMarkUnrecognised (s : State) : Host.Outcome State Fault Refusal := .next (s.unlessRst State.missOwnMark)

/-- Two plans of what is sent from the same bit time on, driven where one of them drives (R100). -/
def overlay (plan : List Bool) : List Bool → List Bool
  | [] => plan
  | drive :: later => (plan.headD false || drive) :: overlay plan.tail later

/-- What a JOINING or ACTIVE station sends after the trailing edge: the rest of the gap, then its own census slot (R109). -/
def State.censusSlotTx (s : State) : List Bool :=
  if s.station.participates then List.replicate (1 + s.id.val) false ++ [true] else []

/-- The trailing edge of a mark: the grid is aligned, the released bit time is the first of the gap. A station still driving
its own 10 bit times keeps driving until its tenth (R106, R107). -/
def State.trailingEdge (s : State) : State :=
  match s.line.position with
  | .round .mark _ =>
    if s.station.observes then
      { s with
        line := { s.line with
          position := .round .gapMark 1, drivenRun := 0, releasedRun := max 1 s.line.releasedRun
          tx := overlay s.line.tx s.censusSlotTx } }
    else s
  | _ => s

/-- MARK_TRAILING_EDGE (R107). -/
def execMarkTrailingEdge (s : State) : Host.Outcome State Fault Refusal := .next (s.unlessRst State.trailingEdge)

/-! ### Census -/

/-- The census field is the one in progress. -/
def Position.inCensus : Position → Bool
  | .round .gapMark _ | .round .census _ => true
  | _ => false

/-- Bit times left up to the end of the census, or up to the end of the sweep (R103). -/
def Position.bitsLeft (size : Nat) : Position → Nat
  | .round .gapMark b => 2 - b + size
  | .round .census b => size - b
  | .round .sweep b => 3 - b
  | _ => 0

/-- Bit times left up to the sweep's first bit time: none where it is the next (R103). -/
def Position.bitsToSweep : Position → Nat
  | .round .gapCensus b => 1 - b
  | _ => 0

/-- The engine past the `left` bit times up to an event that a command tells: what was to be sent in them is over (log
entry 26). -/
def LineEngine.passTo (left : Nat) (p : Position) (l : LineEngine) : LineEngine :=
  { l with position := p, tx := l.tx.drop left }

/-- The census map read, the position past the census (R109). -/
def LineEngine.endCensus (size : Nat) (slots : IdSet) (l : LineEngine) : LineEngine :=
  { l.passTo (l.position.bitsLeft size) (.round .gapCensus 0) with censusMap := slots &&& slotMask size }

/-- The listen count after a census, and the end of LISTEN at the second (R157). -/
def State.countListen (s : State) : State :=
  if s.station = .listen then
    let s1 : State := { s with listenCount := s.listenCount + 1 }
    if 2 ≤ s1.listenCount then s1.enterJoining else s1
  else s

/-- The end of a complete census: the roster's update and the controller's tests (R10, R148, R153, R157). In LISTEN with the
own slot driven the station goes QUIET with cause ID_CLASH, in the order given. -/
def State.finishCensus (slots : IdSet) (first : TakenFirst) (s : State) : State :=
  if s.follows && s.line.position.inCensus then
    let s1 : State := { s with line := s.line.endCensus s.image.groupSize slots }
    let map := s1.line.censusMap
    if s.station = .listen ∧ hasId map s.id = true then
      let s2 : State := { s1 with listenCount := s1.listenCount + 1 }
      match first with
      | .owner => (s2.takeCensus map).enterQuiet .idClash .lost
      | .controller => (s2.enterQuiet .idClash .lost).takeCensus map
    else (s1.takeCensus map).countListen
  else s

/-- CENSUS_END (R148 to R153, R157). -/
def execCensusEnd (slots : IdSet) (first : TakenFirst) (s : State) : Host.Outcome State Fault Refusal :=
  .next (s.unlessRst (State.finishCensus slots first))

/-! ### Sweep -/

/-- The sweep's first bit time is the next one. -/
def Position.beforeSweep : Position → Bool
  | .round .gapCensus _ => true
  | .round .sweep 0 => true
  | _ => false

/-- The first bit time of the sweep begins: a JOINING or ACTIVE station takes and holds its own contribution and enters as a
participant. What it drives follows bit by bit (R111; LineEngine.sweepDrive), beside what is left of an own mark (R106). -/
def State.startSweep (s : State) : State :=
  if s.follows && s.line.position.beforeSweep && s.line.sweep.isNone then
    let took := s.station.participates
    { s with
      line := { s.line.passTo s.line.position.bitsToSweep (.round .sweep 0) with
        sweep := some { tookPart := took, code := s.ann.own, participant := took, sent := [], read := [] } } }
  else s

/-- SWEEP_START (R111, R164). -/
def execSweepStart (s : State) : Host.Outcome State Fault Refusal := .next (s.unlessRst State.startSweep)

/-- One bit time of the sweep for a station: whether it drives, and whether it is a participant afterwards (R111). -/
def sweepBit (participant codeBit lineDriven : Bool) : Bool × Bool :=
  if participant then (codeBit, codeBit || !lineDriven) else (false, false)

/-- What a station drives in the three bit times of a sweep, most significant first, with dropout (R111). -/
def sweepDrives : Bool → List (Bool × Bool) → List Bool
  | _, [] => []
  | participant, (codeBit, lineDriven) :: rest =>
    let r := sweepBit participant codeBit lineDriven
    r.1 :: sweepDrives r.2 rest

/-- One bit time of the sweep, `b` its number from 0: what the station drives, what the line reads, and whether the station
stays a participant (R111, R112). -/
def SweepPart.readBit (b : Nat) (driven : Bool) (p : SweepPart) : SweepPart :=
  let r := sweepBit p.participant (p.code.getMsbD b) driven
  { p with participant := r.2, sent := p.sent ++ [r.1], read := p.read ++ [driven] }

/-- The bits a station drives in a sweep that reads `read`, as a code: those it has driven, then those of the bits that a told
end of the sweep passes (R111; log entry 26). -/
def sweepSentCode (p : SweepPart) (read : Code) : Code :=
  (p.sent ++ sweepDrives p.participant (((msbBits p.code).zip (msbBits read)).drop p.sent.length)).foldl shiftIn 0

/-- What this station drives in the sweep bit that is next (R111). -/
def LineEngine.sweepDrive (l : LineEngine) : Bool :=
  match l.position, l.sweep with
  | .round .sweep b, some p => p.participant && p.code.getMsbD b
  | _, _ => false

/-- The last bit time of the sweep: the result is held and handed to the annunciation unit (R112, R166). -/
def State.finishSweep (read : Code) (s : State) : State :=
  match s.line.position, s.line.sweep with
  | .round .sweep _, some p =>
    if s.station.observes then
      ({ s with
         line := { s.line.passTo (s.line.position.bitsLeft s.image.groupSize) (.round .gapSweep 0) with
           sweep := none, sweepResult := read, sweepSent := sweepSentCode p read } } : State).takeSweep read p.tookPart
    else s
  | _, _ => s

/-- SWEEP_END (R112, R166). -/
def execSweepEnd (read : Code) (s : State) : Host.Outcome State Fault Refusal :=
  .next (s.unlessRst (State.finishSweep read))

/-! ### The start of a window -/

/-- The next bit time is a window's start bit position: after the 1-bit gap that follows the sweep, or after the 2-bit gap that
ends a window (R113, R114). -/
def Position.atStartBit (size : Nat) : Position → Bool
  | .round .gapSweep b => decide (1 ≤ b)
  | .round (.window _) b => decide (59 + size ≤ b)
  | _ => false

/-- The frame of the window under way is over: the bit times left are the delimiter, the receipt field and the closing gap
(R114). -/
def Position.pastFrame : Position → Bool
  | .round (.window _) b => decide (55 ≤ b)
  | _ => false

/-- Nothing that this station reads lies between the position and the next start bit position: it is in the gap after the
sweep, or a receiver past the frame of a window. DESIGN CHOICE (log entry 26): WINDOW_START told there passes the bit times
up to that position; inside a frame it is no event. -/
def Position.beforeWindow (p : Position) : Bool :=
  match p with
  | .round .gapSweep _ => true
  | _ => p.pastFrame

/-- The severity of a queue entry at the choice (R81). -/
def State.noticeSeverity (n : Notice) (s : State) : Nat :=
  match n with
  | .channel c _ => (s.monitor c).record.level.severity
  | .ack _ _ _ severity => severity
  | .replay => 0

/-- The kind a queue entry sends at the choice (R82). -/
def State.noticeKind (n : Notice) (s : State) : NoticeKind :=
  match n with
  | .channel c stateOnly => (s.monitor c).record.kindToSend stateOnly
  | .ack _ _ _ _ => .ack
  | .replay => .replay

/-- The contest key of a queue entry (R81). -/
def State.noticeKey (n : Notice) (s : State) : Nat := contestKey (s.noticeSeverity n) (s.noticeKind n) s.id

/-- The payload of a queue entry (R82, R124 to R126). -/
def State.noticePayload (n : Notice) (s : State) : BitVec 36 :=
  match n with
  | .channel c _ => announcementPayload c (s.monitor c).record
  | .ack o c q _ => ackPayload o c q
  | .replay => replayPayload s.image

/-- The frame formed for a queue entry (R130). -/
def State.noticeFlight (n : Notice) (s : State) : Flight := flightOf (BitVec.ofNat 10 (s.noticeKey n)) (s.noticePayload n)

/-- Whether an entry is eligible in the station state (R80). -/
def StationState.offers (st : StationState) (e : QueueEntry) : Bool :=
  decide (e.state = .waiting) &&
    match st with
    | .active => true
    | .joining => decide (e.notice = .replay)
    | .setup | .listen | .quiet | .stuck => false

/-- The ack severity of an eligible ACK entry set from its target entry, if the table holds it (R81; log entry 11). DESIGN
CHOICE (log entry 11): where the entry's own ACK removed its target (R92) and the table holds a new entry of the key, the new
entry's severity is taken by R81, and not the severity kept by R92. -/
def State.refreshSeverity (s : State) (e : QueueEntry) : QueueEntry :=
  match e.notice with
  | .ack o c q severity =>
    if s.station.offers e then
      { e with notice := .ack o c q (((s.table.find o c).map (·.severity)).getD severity) }
    else e
  | .channel _ _ | .replay => e

/-- The entry of lowest key, the oldest among equal keys (R80). -/
def lowestKey (key : QueueEntry → Nat) : List QueueEntry → Option QueueEntry
  | [] => none
  | e :: es =>
    match lowestKey key es with
    | none => some e
    | some f => if key f < key e then some f else some e

/-- The candidate the queue names for a window (R80). -/
def State.candidate (s : State) : Option QueueEntry :=
  lowestKey (fun e => s.noticeKey e.notice) (s.queue.filter s.station.offers)

/-- The part of a station in a window that begins: CONTENDER with the frame formed, or RECEIVER (R128, R130). -/
def windowPart (flight : Option Flight) : Window :=
  { role := if flight.isSome then .contender else .receiver
    flight := flight, received := [], judgement := none, sentWhole := false, slots := 0 }

/-- The line engine past the start bit of a window (R113, R114, R130). Released: the window is empty, and it and the later
windows are skipped. A contender keeps its part until its line fault is taken (R133). -/
def LineEngine.startWindow (driven : Bool) (flight : Option Flight) (l : LineEngine) : LineEngine :=
  let k := l.windowsUsed + 1
  { l with
    windowsUsed := k
    position := if driven then .round (.window k) 1 else .round .endGap 0
    window := if driven || flight.isSome then some (windowPart flight) else none
    tx := if driven then ((flight.map (fun f => (msbBits f.key).map (!·))).getD []) else [] }

/-- A window is left in the round, and no entry of this station is on the line (R84, R113). -/
def State.windowLeft (s : State) : Bool :=
  s.follows && decide (s.line.windowsUsed < s.image.windows) && (lineEntry s.queue).isNone

/-- This station drives the start bit that is next: it is at a start bit position and holds a candidate (R113, R130). -/
def State.startBitDrive (s : State) : Bool :=
  s.windowLeft && s.line.position.atStartBit s.image.groupSize && s.candidate.isSome

/-- A window's start bit: the choice, the frame, the role (R80, R81, R82, R113, R130). The command is taken with the reading of
the start bit; that a station with a candidate drives it is State.startBitDrive. -/
def State.startWindow (driven : Bool) (s : State) : State :=
  if s.windowLeft && s.line.position.beforeWindow then
    let s1 : State := { s with queue := s.queue.map s.refreshSeverity }
    match s1.candidate with
    | none => { s1 with line := s1.line.startWindow driven none }
    | some e =>
      { s1 with
        queue := updateSlot e.slot (fun e => { e with state := .candidate }) s1.queue
        line := s1.line.startWindow driven (some (s1.noticeFlight e.notice)) }
  else s

/-- WINDOW_START (R113, R130). -/
def execWindowStart (driven : Bool) (s : State) : Host.Outcome State Fault Refusal :=
  .next (s.unlessRst (State.startWindow driven))

/-! ### The end of the round -/

/-- Nothing that this station reads lies between the position and the end of the round: it is in the end gap, or a receiver
past the frame of the last window, whose closing gap the end gap follows (R113, R115). DESIGN CHOICE (log entry 26): ROUND_END
told there passes the bit times left; inside a frame it is no event. -/
def LineEngine.beforeRoundEnd (windows : Nat) (l : LineEngine) : Bool :=
  match l.position with
  | .round .endGap _ => true
  | p => p.pastFrame && decide (windows ≤ l.windowsUsed)

/-- The engine at the last bit time of the end gap (R115). -/
def LineEngine.endRound (participates : Bool) (l : LineEngine) : LineEngine :=
  let l1 := { l with position := .idle, window := none, sweep := none, tx := [] }
  if l.deferredMark then
    if participates then { l1.driveMark with deferredMark := false } else { l1 with deferredMark := false }
  else l1

/-- The end of the round (R115). A candidate's part in its window is over by then. -/
def State.finishRound (s : State) : State :=
  if s.follows && s.line.beforeRoundEnd s.image.windows && (lineEntry s.queue).isNone then
    { s with line := s.line.endRound s.station.participates }
  else s

/-- ROUND_END (R115). -/
def execRoundEnd (s : State) : Host.Outcome State Fault Refusal := .next (s.unlessRst State.finishRound)

/-! ### Line supervision -/

/-- The engine with the line found stuck: the position OFF, the grid, the timer, the deferred mark and the census map dropped,
and with them a census, sweep or window in progress (R118, R128). -/
def LineEngine.goOff (l : LineEngine) : LineEngine :=
  { l with
    position := .off, roundTimer := none, deferredMark := false, ownMark := false, censusMap := 0, sweep := none
    window := none, idleRun := 0, tx := [] }

/-- The driven run reaches 40 (R118). The bit times count it; told sooner, it is taken as 40 (log entry 25). -/
def State.findStuck (s : State) : State :=
  if s.station.observes ∧ s.line.lineState = .up then
    let s1 : State := { s with
      line := { s.line with lineState := .stuck, drivenRun := max Config.stuckRun s.line.drivenRun, releasedRun := 0 } }
    let s2 := s1.leaveGroup .lost
    let s3 : State := { s2 with line := s2.line.goOff }
    (s3.write .lineStuck true).enterStuck
  else s

/-- LINE_STUCK (R16, R118, R120). -/
def execLineStuck (s : State) : Host.Outcome State Fault Refusal := .next (s.unlessRst State.findStuck)

/-- The released run reaches 64 (R119): UP, LINE_RESTORED, SEEK; a station in STUCK goes to LISTEN. The bit times count the run;
told sooner, it is taken as 64 (log entry 25). -/
def State.restoreLine (s : State) : State :=
  if s.line.lineState = .stuck ∧ (s.station = .stuck ∨ s.station = .quiet) then
    let s1 : State := { s with
      line := { s.line with
        lineState := .up, position := .seek, roundTimer := none
        drivenRun := 0, releasedRun := max Config.restoreRun s.line.releasedRun, idleRun := 0 } }
    let s2 := s1.write .lineRestored false
    if s2.station = .stuck then s2.enterListen else s2
  else s

/-- LINE_RESTORED (R119, R120). -/
def execLineRestored (s : State) : Host.Outcome State Fault Refusal := .next (s.unlessRst State.restoreLine)

end Sys2Proof.Machine
end

