-- ==== Sys2Proof/Machine/Sample.lean ====
section
/-! DEFINITION. The sample port (R18, R19, R20) and the stale timer's expiry (R25). -/

namespace Sys2Proof.Machine

/-- CFS asserted: a frame opens (R18), unless the assembler still waits to see CFS released (R19). -/
def State.openFrame (s : State) : State :=
  if s.assembler.waiting ∨ s.assembler.framing then s
  else { s with assembler := { Assembler.reset with framing := true } }

/-- CFS_ASSERTED (R18, R19). -/
def execCfsAsserted (s : State) : Host.Outcome State Fault Refusal :=
  let s1 : State := { s with cfsPin := true }
  .next (s1.unlessRst State.openFrame)

/-- A rising edge of CCK with a bit on CDT (R18, R19). -/
def Assembler.takeBit (a : Assembler) (bit : Bool) : Assembler :=
  if a.framing then { a with taken := shiftIn a.taken bit, count := a.count + 1 } else a

/-- CFS released: the frame closes and is judged by its bit count (R18, R19, R20). -/
def State.closeFrame (s : State) : State :=
  let a := s.assembler
  let s1 : State := { s with assembler := Assembler.reset }
  if a.framing then
    if a.count = 16 then s1.offerWord a.taken else { s1 with framingErrors := satInc s1.framingErrors }
  else s1

/-- The bits of a frame, then its close. -/
def State.closeWord (bits : List Bool) (s : State) : State :=
  ({ s with assembler := bits.foldl Assembler.takeBit s.assembler } : State).closeFrame

/-- WORD_CLOSE (R18 to R26, R28 to R32). -/
def execWordClose (bits : List Bool) (s : State) : Host.Outcome State Fault Refusal :=
  let s1 : State := { s with cfsPin := false }
  .next (s1.unlessRst (State.closeWord bits))

/-- The stale timer of a channel runs out: it stops, and the channel takes the fault event; a timer that does not run does
not run out (R25). DESIGN CHOICE (log entry 25): a command taken while the timer runs with time left is taken as the expiry,
since the command tells the moment; a bit time sends it at the timer's end only. -/
def State.staleExpiry (c : Channel) (s : State) : State :=
  if s.station.classifies && (s.monitor c).staleTimer.isSome then
    (s.setMonitor c { s.monitor c with staleTimer := none }).faultEvent c .stale
  else s

/-- STALE_TIMER_EXPIRY (R25). -/
def execStaleTimerExpiry (c : Channel) (s : State) : Host.Outcome State Fault Refusal :=
  .next (s.unlessRst (State.staleExpiry c))

end Sys2Proof.Machine
end

