-- ==== Sys2Proof/Machine/Dispatch.lean ====
section
/-! DEFINITION. One arm per command: the meaning of each row of the table. -/

namespace Sys2Proof.Machine

def exec (i : Instr) (s : State) : Host.Outcome State Fault Refusal :=
  match i with
  | .powerOn straps scs cfs => Sys2Proof.Machine.execPowerOn straps scs cfs s
  | .rstAsserted => Sys2Proof.Machine.execRstAsserted s
  | .rstReleased straps => Sys2Proof.Machine.execRstReleased straps s
  | .scsAsserted => Sys2Proof.Machine.execScsAsserted s
  | .scsReleased bits => Sys2Proof.Machine.execScsReleased s bits
  | .badCommand code => Sys2Proof.Machine.execBadCommand code s
  | .status => Sys2Proof.Machine.execStatus s
  | .configWrite item value => Sys2Proof.Machine.execConfigWrite item value s
  | .configRead item => Sys2Proof.Machine.execConfigRead item s
  | .start => Sys2Proof.Machine.execStart s
  | .restart => Sys2Proof.Machine.execRestart s
  | .quiet => Sys2Proof.Machine.execQuiet s
  | .resume => Sys2Proof.Machine.execResume s
  | .view rank => Sys2Proof.Machine.execView rank s
  | .entry origin channel => Sys2Proof.Machine.execEntry origin channel s
  | .ack origin channel seq => Sys2Proof.Machine.execAck origin channel seq s
  | .shelve channel => Sys2Proof.Machine.execShelve channel s
  | .unshelve channel => Sys2Proof.Machine.execUnshelve channel s
  | .purge origin => Sys2Proof.Machine.execPurge origin s
  | .feedPeek => Sys2Proof.Machine.execFeedPeek s
  | .feedRelease count => Sys2Proof.Machine.execFeedRelease count s
  | .roster id => Sys2Proof.Machine.execRoster id s
  | .queue slot => Sys2Proof.Machine.execQueue slot s
  | .channel channel => Sys2Proof.Machine.execChannel channel s
  | .countersRead => Sys2Proof.Machine.execCountersRead s
  | .countersClear => Sys2Proof.Machine.execCountersClear s
  | .cfsAsserted => Sys2Proof.Machine.execCfsAsserted s
  | .wordClose bits => Sys2Proof.Machine.execWordClose bits s
  | .staleTimerExpiry channel => Sys2Proof.Machine.execStaleTimerExpiry channel s
  | .roundTimerExpiry => Sys2Proof.Machine.execRoundTimerExpiry s
  | .silenceTimerExpiry => Sys2Proof.Machine.execSilenceTimerExpiry s
  | .markRecognised => Sys2Proof.Machine.execMarkRecognised s
  | .markUnrecognised => Sys2Proof.Machine.execMarkUnrecognised s
  | .markTrailingEdge => Sys2Proof.Machine.execMarkTrailingEdge s
  | .censusEnd slots first => Sys2Proof.Machine.execCensusEnd slots first s
  | .sweepStart => Sys2Proof.Machine.execSweepStart s
  | .sweepEnd read => Sys2Proof.Machine.execSweepEnd read s
  | .windowStart driven => Sys2Proof.Machine.execWindowStart driven s
  | .contestLost bit => Sys2Proof.Machine.execContestLost bit s
  | .lineFaultAbandon bit first => Sys2Proof.Machine.execLineFaultAbandon bit first s
  | .keyWon => Sys2Proof.Machine.execKeyWon s
  | .readBackMismatch bit first => Sys2Proof.Machine.execReadBackMismatch bit first s
  | .frameSentWhole => Sys2Proof.Machine.execFrameSentWhole s
  | .frameJudged read => Sys2Proof.Machine.execFrameJudged read s
  | .receiptSlot => Sys2Proof.Machine.execReceiptSlot s
  | .receiptFieldEnd slots => Sys2Proof.Machine.execReceiptFieldEnd slots s
  | .roundEnd => Sys2Proof.Machine.execRoundEnd s
  | .lineStuck => Sys2Proof.Machine.execLineStuck s
  | .lineRestored => Sys2Proof.Machine.execLineRestored s

end Sys2Proof.Machine
end

