-- ==== Sys2Proof/Machine/Pins.lean ====
section
/-! DEFINITION. The pins as functions of the state (R3, R100, R165, R170, R171, R197, R204): whether a pin is asserted, and the
level that the active levels of R204 make of it. SDO answers the bit driven, or none when it is not driven. -/

namespace Sys2Proof.Machine

/-- GTX is asserted in the next bit time: a bit that is set to be sent, a sweep bit, or a start bit; nothing while RST is asserted
or outside JOINING and ACTIVE (R1, R3, R100). -/
def State.gtx (s : State) : Bool :=
  !s.rst && s.station.participates && (s.line.tx.headD false || s.line.sweepDrive || s.startBitDrive)

/-- What GRX reads in the next bit time, true for driven: as it is given from outside; with nothing given, what this station
drives, as on a line without other stations (R100; log entry 23). -/
def State.grx (s : State) : Bool := s.grxAhead.headD s.gtx

/-- IRQ is asserted (R3, R197). -/
def State.irqPin (s : State) : Bool := !s.rst && s.feed.irq

/-- ANN_S1 is asserted (R165). -/
def State.annS1 (s : State) : Bool := !s.rst && s.ann.code.getLsbD 2

/-- ANN_S0 is asserted (R165). -/
def State.annS0 (s : State) : Bool := !s.rst && s.ann.code.getLsbD 1

/-- ANN_U is asserted (R165). -/
def State.annU (s : State) : Bool := !s.rst && s.ann.code.getLsbD 0

/-- ANN_LINK is asserted (R165, R166). -/
def State.annLink (s : State) : Bool := !s.rst && s.ann.link

/-- The bit of a response at a place, most significant bit of each byte first (R171). -/
def responseBit (response : List Byte) (sent : Nat) : Bool := (response.getD (sent / 8) absentByte).getMsbD (sent % 8)

/-- SDO (R170, R171): not driven in IDLE and BLOCKED, 1 in COMMAND, ARGUMENTS and SPENT, the response in RESPONSE. -/
def State.sdo (s : State) : Option Bool :=
  if s.rst then none
  else
    match s.port.phase with
    | .idle | .blocked => none
    | .command | .arguments | .spent => some true
    | .response => some (responseBit s.port.response s.port.sent)

/-! ### Levels (R204) -/

/-- What stands on a pin: a level, or no level of the station's own (an open drain released, a three-state output off). -/
inductive PinLevel where
  | low | high | floating
deriving DecidableEq, Repr

/-- A driven pin or an input whose active level is low. -/
def lowActive (asserted : Bool) : PinLevel := if asserted then .low else .high

/-- An open drain whose active level is low. -/
def openDrain (asserted : Bool) : PinLevel := if asserted then .low else .floating

/-- A three-state output. -/
def threeState : Option Bool → PinLevel
  | none => .floating
  | some bit => if bit then .high else .low

/-- The levels of the pins with a level of their own in R204: outputs as the station drives them, inputs as the state holds
them. CCK, CDT, SCK, SDI and ID4..ID0 are the operands of the commands that sample them. -/
structure Pins where
  gtx : PinLevel
  grx : PinLevel
  cfs : PinLevel
  scs : PinLevel
  sdo : PinLevel
  irq : PinLevel
  annS1 : PinLevel
  annS0 : PinLevel
  annU : PinLevel
  annLink : PinLevel
  rst : PinLevel
deriving DecidableEq, Repr

/-- The pins of a state (R204). DESIGN CHOICE (log entry 16): GTX, neither an open drain nor a three-state output in R204, stands
at its released level high while RST is asserted, where R3 says that the station drives no output and GTX is released. -/
def State.pins (s : State) : Pins :=
  { gtx := lowActive s.gtx, grx := lowActive s.grx, cfs := lowActive s.cfsPin, scs := lowActive s.scsPin
    sdo := threeState s.sdo, irq := openDrain s.irqPin, annS1 := openDrain s.annS1, annS0 := openDrain s.annS0
    annU := openDrain s.annU, annLink := openDrain s.annLink, rst := lowActive s.rst }

end Sys2Proof.Machine
end

