-- ==== Sys2Proof/Machine/Tick.lean ====
section
/-! DEFINITION. One bit time of the station's own clock, which a step on an empty queue takes (R101; log entry 2): the station
drives GTX and reads GRX, the runs of the line are counted, the reading enters the field in progress, the grid and the timers
move on. Whatever the bit time brings joins the queue as the command of its event, and is taken before the next bit time. -/

namespace Sys2Proof.Machine

/-! ### Timers -/

/-- A timer after `d` of its units. -/
def runTimer (d : Nat) (t : Option Nat) : Option Nat := t.map (· - d)

/-- A timer that runs out within the next `d` units. -/
def timerDue (d : Nat) : Option Nat → Bool
  | some n => decide (0 < n ∧ n ≤ d)
  | none => false

/-- A channel's stale timer after one bit time (R25). -/
def State.tickMonitor (s : State) (c : Channel) : State :=
  s.setMonitor c { s.monitor c with staleTimer := runTimer s.image.bitRate.bitMicros (s.monitor c).staleTimer }

/-- The expiry commands of the round timer and the silence timer, where they run out in this bit time. -/
def State.dueLineTimers (s : State) : List Instr :=
  (if timerDue 1 s.line.roundTimer then [.roundTimerExpiry] else []) ++
    (if timerDue 1 s.silenceTimer then [.silenceTimerExpiry] else [])

/-- The expiry commands of the stale timers that run out in this bit time, in channel order. -/
def State.dueStaleTimers (s : State) : List Instr :=
  (channelOrder.filter (fun c => timerDue s.image.bitRate.bitMicros (s.monitor c).staleTimer)).map Instr.staleTimerExpiry

/-! ### The line engine -/

/-- The position after one bit time, by the grid (R103, R114, R115). It waits for the command of the event at the end of the
census, at the ends of the sweep, at a start bit and at the end of the end gap; the end gap follows the closing gap of the last
window at once. -/
def Position.walk (size windows used : Nat) (sweeping : Bool) : Position → Position
  | .round .mark b => .round .mark (b + 1)
  | .round .gapMark b => if b + 1 < 2 then .round .gapMark (b + 1) else .round .census 0
  | .round .census b => if b < size then .round .census (b + 1) else .round .census b
  | .round .gapCensus _ => .round .sweep 0
  | .round .sweep b => if sweeping ∧ b < 3 then .round .sweep (b + 1) else .round .sweep b
  | .round .gapSweep b => if b < 1 then .round .gapSweep (b + 1) else .round .gapSweep b
  | .round (.window k) b =>
    if b + 1 < 59 + size then .round (.window k) (b + 1)
    else if windows ≤ used then .round .endGap 0
    else .round (.window k) (59 + size)
  | .round .endGap b => if b < 4 then .round .endGap (b + 1) else .round .endGap b
  | .off => .off
  | .seek => .seek
  | .idle => .idle

/-- The last bit time of a window's closing gap (R128). -/
def Position.closesWindow (size : Nat) : Position → Bool
  | .round (.window _) b => decide (58 + size ≤ b)
  | _ => false

/-- Bit time `b` of a window enters the receive register (R128, R139) or, at a sender, the receipt map (R137). -/
def Window.readBit (size b : Nat) (driven : Bool) (w : Window) : Window :=
  if 1 ≤ b ∧ b ≤ 54 then { w with received := w.received ++ [!driven] }
  else if 57 ≤ b ∧ b < 57 + size ∧ w.role = .sender ∧ driven = true then { w with slots := w.slots ||| 1#32 <<< (b - 57) }
  else w

/-- The reading of a bit time enters what the field in progress reads: the census map (R109), the sweep (R111, R112), the window
(R128, R137). In a gap nothing takes it (R116). -/
def LineEngine.readBit (size : Nat) (driven : Bool) (l : LineEngine) : LineEngine :=
  match l.position with
  | .round .census b => if b < size ∧ driven = true then { l with censusMap := l.censusMap ||| 1#32 <<< b } else l
  | .round .sweep b => { l with sweep := l.sweep.map (fun p => if b < 3 then p.readBit b driven else p) }
  | .round (.window _) b => { l with window := l.window.map (Window.readBit size b driven) }
  | _ => l

/-- A window's part that sends nothing is dropped at the last bit time of the closing gap (R128). -/
def LineEngine.closeWindow (size : Nat) (l : LineEngine) : LineEngine :=
  if l.position.closesWindow size && (l.window.map (fun w => decide (w.role = .receiver))).getD false then
    { l with window := none }
  else l

/-- The grid, the round timer and what is sent move on by one bit time. -/
def LineEngine.advance (size windows : Nat) (l : LineEngine) : LineEngine :=
  { l with
    position := l.position.walk size windows l.windowsUsed l.sweep.isSome
    roundTimer := runTimer 1 l.roundTimer
    tx := l.tx.tail }

/-- The line engine after one bit time that reads `driven`. The runs are not counted in SETUP (R118). -/
def LineEngine.bitTime (image : Image) (supervised driven : Bool) (l : LineEngine) : LineEngine :=
  let l1 := if supervised then l.countBit driven else l
  ((l1.readBit image.groupSize driven).closeWindow image.groupSize).advance image.groupSize image.windows

/-! ### What a bit time brings -/

/-- Who takes an event of this bit time first, where the manual leaves it open: a free value (log entry 5). -/
def State.firstTaker (s : State) : TakenFirst := if Config.ownerTakesFirst s.bitTimes then .owner else .controller

/-- On the idle line: a mark recognised at the eighth driven bit time (R104), or the tenth bit time of an own mark over without
one (R106). -/
def State.idleEvents (s : State) (l : LineEngine) : List Instr :=
  if s.line.position.lineIdle then
    if Config.markRecognition ≤ l.idleRun then [.markRecognised]
    else if s.line.ownMark && decide (s.line.tx.length = 1) then [.markUnrecognised]
    else []
  else []

/-- At a start bit position: the start bit's reading (R113), and the line fault of a station that drove it in vain (R133). -/
def State.startBitEvents (s : State) (driven : Bool) : List Instr :=
  .windowStart driven :: (if s.startBitDrive && !driven then [.lineFaultAbandon 0 s.firstTaker] else [])

/-- What bit time `b` of a frame brings at the station that sends it (R131 to R136): a contender's loss or line fault, its win at
key bit 10; a sender's mismatch, its frame sent whole at the last CRC bit. -/
def State.sendEvents (s : State) (w : Window) (b : Nat) (driven : Bool) : List Instr :=
  match w.role, w.flight with
  | .contender, some f =>
    if 1 ≤ b ∧ b ≤ 10 then
      if f.bitAt b && driven then [.contestLost b]
      else if !f.bitAt b && !driven then [.lineFaultAbandon b s.firstTaker]
      else if b = 10 then [.keyWon]
      else []
    else []
  | .sender, some f =>
    if 11 ≤ b ∧ b ≤ 54 then
      if f.bitAt b = driven then [.readBackMismatch b s.firstTaker]
      else if b = 54 then [.frameSentWhole]
      else []
    else []
  | _, _ => []

/-- What bit time `b` of a window brings: the frame's events, the judgement at bit 54 unless this station sent the frame whole
(R139), the own receipt slot next (R145), the end of the receipt field at its sender (R137). `l` is the engine after it. -/
def State.windowEvents (s : State) (l : LineEngine) (b : Nat) (driven : Bool) : List Instr :=
  match s.line.window, l.window with
  | some before, some w =>
    let sends := s.sendEvents before b driven
    sends ++
      (if b = 54 ∧ ¬.frameSentWhole ∈ sends then [.frameJudged (w.received.foldl shiftIn 0)] else []) ++
      (if b = 56 + s.id.val ∧ s.station.participates = true ∧ w.judgement = some .accepted then [.receiptSlot] else []) ++
      (if b = 56 + s.image.groupSize ∧ w.role = .sender then [.receiptFieldEnd w.slots] else [])
  | _, _ => []

/-- What a bit time brings in the field in progress (R103, R107, R109, R111, R112, R113, R115). `l` is the engine after it. -/
def State.fieldEvents (s : State) (l : LineEngine) (driven : Bool) : List Instr :=
  match s.line.position with
  | .round .mark _ => if driven then [] else [.markTrailingEdge]
  | .round .census b => if s.image.groupSize ≤ b + 1 then [.censusEnd l.censusMap s.firstTaker] else []
  | .round .gapCensus _ => [.sweepStart]
  | .round .sweep b =>
    match l.sweep with
    | some p => if 2 ≤ b then [.sweepEnd (p.read.foldl shiftIn 0)] else []
    | none => []
  | .round (.window _) b =>
    if s.line.position.atStartBit s.image.groupSize then s.startBitEvents driven else s.windowEvents l b driven
  | .round .gapSweep _ => if s.line.position.atStartBit s.image.groupSize then s.startBitEvents driven else []
  | .round .endGap b => if 3 ≤ b then [.roundEnd] else []
  | .round .gapMark _ | .off | .seek | .idle => []

/-- What line supervision finds: the driven run at 40 with the line UP, the released run at 64 with it STUCK (R118, R119). -/
def LineEngine.supervise (l : LineEngine) : List Instr :=
  match l.lineState with
  | .up => if Config.stuckRun ≤ l.drivenRun then [.lineStuck] else []
  | .stuck => if Config.restoreRun ≤ l.releasedRun then [.lineRestored] else []

/-- The commands of the line's events in this bit time: of the round, then of supervision. -/
def State.lineEvents (s : State) (l : LineEngine) (driven : Bool) : List Instr :=
  (if s.station.observes then s.idleEvents l ++ s.fieldEvents l driven else []) ++
    (if s.station = .setup then [] else l.supervise)

/-- One bit time. What it brings joins the queue in one order: the round and silence timers, the line, the stale timers (log
entry 2). While RST is asserted the station does nothing (R3). -/
def State.tick (s : State) : State :=
  s.unlessRst (fun s =>
    let driven := s.grx
    let l := s.line.bitTime s.image (decide (s.station ≠ .setup)) driven
    let s1 := channelOrder.foldl State.tickMonitor s
    { s1 with
      line := l
      grxAhead := s.grxAhead.tail
      bitTimes := s.bitTimes + 1
      silenceTimer := runTimer 1 s.silenceTimer
      pending := s.pending ++ s.dueLineTimers ++ s.lineEvents l driven ++ s.dueStaleTimers })

end Sys2Proof.Machine
end

