-- ==== Sys2Proof/Safety.lean ====
section
/-! DEFINITION. What the statements are made of: an open transaction and its answer, an open sample frame, and the properties
of a state that every step keeps. Each property is a Bool, so that a state can be checked. -/

namespace Sys2Proof.Machine

/-! ### Transactions and frames -/

/-- A transaction is open and no bit of its command byte has been taken (R170). -/
abbrev State.transactionOpen (s : State) : Prop := s.rst = false ∧ s.port.phase = .command ∧ s.port.bits = 0

/-- A station with the answer to a request ready to be clocked out (R173). -/
def State.answered (command : HostCommand) (args response : List Byte) (s : State) : State :=
  { s with
    port := { s.port with
      phase := .response, shift := 0, bits := 0, command := some command, args := args, response := response, sent := 0 } }

/-- A sample frame is open, with no bit taken yet (R18). -/
abbrev State.sampleFrameOpen (s : State) : Prop :=
  s.rst = false ∧ s.assembler = { framing := true, taken := 0, count := 0, waiting := false }

/-- The 16 bits of a sample word in the order they arrive (R18). -/
def sampleWord (channel : Channel) (fault : Bool) (value : Value) : List Bool :=
  msbBits (BitVec.ofNat 3 channel.val) ++ [fault] ++ msbBits value

/-- A command brings an adoption of level `y` by channel `c`: a value word whose target has persisted (R23), or a fault word (R24)
or an expiry of the stale timer (R25) at a channel not in FAULT. `last` and `timer` are the last value and the stale timer
that the command leaves. -/
def State.adoptionAt (s : State) (command : Instr) (c : Channel) (y : Level) (cause : FaultCause) (last : Value)
    (timer : Option Nat) : Prop :=
  let m := s.monitor c
  let n := (s.image.channel c).persistence
  let full : Option Nat := if s.image.staleLimit = 0 then none else some (s.image.staleLimit * 10000)
  s.rst = false ∧ s.station ≠ .setup ∧ y ≠ m.level ∧
    ((s.sampleFrameOpen ∧ (s.image.channel c).enable = true ∧ command = .wordClose (sampleWord c false last) ∧
        y = targetLevel (s.image.channel c) m.level last.toNat ∧
        ((m.candidate = some y ∧ m.count + 1 = n) ∨ (m.candidate ≠ some y ∧ n = 1)) ∧ cause = .none ∧ timer = full) ∨
      (s.sampleFrameOpen ∧ (s.image.channel c).enable = true ∧
        (∃ v, command = .wordClose (sampleWord c true v)) ∧ y = .fault ∧ cause = .converter ∧ last = m.lastValue ∧
        timer = full) ∨
      (command = .staleTimerExpiry c ∧ m.staleTimer ≠ none ∧ y = .fault ∧ cause = .stale ∧ last = m.lastValue ∧ timer = none))

/-- The joins of a census, and the leaves: an ABSENT record with its slot driven, a PRESENT one that reaches the absence limit
(R149, R150). -/
def State.joins (s : State) (slots : IdSet) (k : StationId) : Bool :=
  decide (k.val < s.image.groupSize) && hasId slots k && decide ((s.peer k).presence = .absent)

/-- See `State.joins`. -/
def State.leaves (s : State) (slots : IdSet) (k : StationId) : Bool :=
  decide (k.val < s.image.groupSize) && !hasId slots k && decide ((s.peer k).presence = .present) &&
    decide (s.image.absenceLimit ≤ (s.peer k).missed + 1)

/-- The records of a census, in the order of the ids (R151 to R153). -/
def State.censusRecords (s : State) (slots : IdSet) : List FeedBody :=
  (stationIds.filter (fun k => decide (k ≠ s.id))).filterMap (fun k =>
    if s.joins slots k then
      some (.peerJoined k (s.table.entries.filter (fun e => decide (e.origin = k) && e.orphaned)).length)
    else if s.leaves slots k then some (.peerLeft k (s.table.entries.filter (fun e => decide (e.origin = k))).length)
    else none)

/-- This station has a part in the window under way, in a role, with a frame in flight; a queue entry is on the line with it
(R128). -/
abbrev State.sends (s : State) (role : Role) (w : Window) (f : Flight) (e : QueueEntry) : Prop :=
  s.rst = false ∧ (s.station = .joining ∨ s.station = .active) ∧ s.line.window = some w ∧ w.role = role ∧
    w.flight = some f ∧ lineEntry s.queue = some e

/-- The station reads the window under way as a receiver that has not judged its frame (R139). -/
abbrev State.listensTo (s : State) (w : Window) : Prop :=
  s.rst = false ∧ (s.station = .listen ∨ s.station = .joining ∨ s.station = .active ∨ s.station = .quiet) ∧
    (∃ k b, s.line.position = .round (.window k) b) ∧ s.line.window = some w ∧ w.role = .receiver ∧ w.judgement = none ∧
    w.sentWhole = false

/-- The station after reading a whole frame as a receiver, before it acts on it (R128, R139). -/
def State.afterFrame (s : State) (w : Window) (read : BitVec 54) (j : Judgement) : State :=
  { s with
    line := { s.line with
      position := .round (.window s.line.windowsUsed) 55
      window := some { w with received := msbBits read, judgement := some j } } }

/-! ### What the rules make of the entry on the line, and of stale ACK entries -/

/-- Records written one after another, none of them urgent (R192, R194). -/
def Feed.recordAll (watermark : Nat) (round : Counter) (bodies : List FeedBody) (f : Feed) : Feed :=
  bodies.foldl (fun f b => f.arrive watermark round false b) f

/-- The ACK_SUPERSEDED that a retired ACK entry leaves in the feed (R94). -/
def Notice.supersededBody : Notice → List FeedBody
  | .ack o c q _ => [.ackSuperseded o c q]
  | .channel _ _ | .replay => []

/-- The ids of the required set that have given no receipt (R87, R89). -/
def State.missingFrom (s : State) (receipts : IdSet) : IdSet := s.line.censusMap &&& ~~~(idBit s.id) &&& ~~~receipts

/-- What a part in a window that is LOST leaves: the queue, and the records written (R85 steps 2, 3, 4, R91, R94). -/
def State.lostPart (s : State) (e : QueueEntry) : List QueueEntry × List FeedBody :=
  if e.withdraw then (freeSlot e.slot s.queue, e.notice.supersededBody)
  else if e.restage then
    (updateSlot e.slot (fun _ => { e with state := .waiting, attempts := 0, receipts := 0, restage := false }) s.queue, [])
  else (updateSlot e.slot (fun _ => { e with state := .waiting }) s.queue, [])

/-- What an attempt leaves: the queue, and the records written. `map` holds the receipts it brought, without this station's own;
`seq` is the seq that its frame carried (R85 steps 1 to 3 and 5 to 7, R86 to R91, R94). -/
def State.attemptMade (s : State) (map : IdSet) (seq : Seq) (e : QueueEntry) : List QueueEntry × List FeedBody :=
  let attempts := e.attempts + 1
  let receipts := e.receipts ||| map
  let missing := s.missingFrom receipts
  if e.withdraw then (freeSlot e.slot s.queue, e.notice.supersededBody)
  else if e.restage then
    (updateSlot e.slot (fun _ => { e with state := .waiting, attempts := 0, receipts := 0, restage := false }) s.queue, [])
  else if missing = 0 then
    (freeSlot e.slot s.queue, if e.notice = .replay then [.joinComplete 0] else [])
  else if attempts < s.image.retryLimit then
    (updateSlot e.slot (fun _ => { e with state := .resting, attempts := attempts, receipts := receipts }) s.queue, [])
  else
    (freeSlot e.slot s.queue,
      match e.notice with
      | .channel c _ => [.deliveryPartialChannel c seq attempts missing]
      | .ack o c q _ => [.deliveryPartialAck o c q attempts missing]
      | .replay => [.joinComplete missing])

/-- A REPLAY entry whose attempt retires it: complete, or at the retry limit (R85, R89, R160). -/
def State.replayRetires (s : State) (map : IdSet) (e : QueueEntry) : Bool :=
  decide (e.notice = .replay) &&
    (decide (s.missingFrom (e.receipts ||| map) = 0) || decide (s.image.retryLimit ≤ e.attempts + 1))

/-- A REPLAY entry taken as ABANDONED after the station has left JOINING: it rests (R97). -/
def State.replayRests (s : State) (e : QueueEntry) : List QueueEntry × List FeedBody :=
  (updateSlot e.slot (fun _ => { e with state := .resting, attempts := e.attempts + 1 }) s.queue, [])

/-- An ACK entry of one of the keys (R93). -/
def QueueEntry.staleFor (keys : List (StationId × Channel)) (e : QueueEntry) : Bool :=
  keys.any (fun k => e.acknowledges k.1 k.2)

/-- A queue whose ACK entries of the keys have gone stale: retired off the line, flagged on it (R94). -/
def queueAfterStale (keys : List (StationId × Channel)) (q : List QueueEntry) : List QueueEntry :=
  (q.filter (fun e => !e.staleFor keys || e.onLine)).map (fun e => if e.staleFor keys then { e with withdraw := true } else e)

/-- The ACK_SUPERSEDED records of ACK entries that go stale off the line, in the order of the keys (R94; log entry 10). -/
def staleRecords (keys : List (StationId × Channel)) (q : List QueueEntry) : List FeedBody :=
  keys.flatMap (fun k => (q.filter (fun e => e.acknowledges k.1 k.2 && !e.onLine)).flatMap (·.notice.supersededBody))

/-- A command is a request of the host port: bytes clocked in on SDI (R172). -/
def isHostRequest : Instr → Bool
  | .badCommand _ | .status | .configWrite _ _ | .configRead _ | .start | .restart | .quiet | .resume | .view _
  | .entry _ _ | .ack _ _ _ | .shelve _ | .unshelve _ | .purge _ | .feedPeek | .feedRelease _ | .roster _ | .queue _
  | .channel _ | .countersRead | .countersClear => true
  | .powerOn _ _ _ | .rstAsserted | .rstReleased _ | .scsAsserted | .scsReleased _ | .cfsAsserted | .wordClose _
  | .staleTimerExpiry _ | .roundTimerExpiry | .silenceTimerExpiry | .markRecognised | .markUnrecognised
  | .markTrailingEdge | .censusEnd _ _ | .sweepStart | .sweepEnd _ | .windowStart _ | .contestLost _
  | .lineFaultAbandon _ _ | .keyWon | .readBackMismatch _ _ | .frameSentWhole | .frameJudged _ | .receiptSlot
  | .receiptFieldEnd _ | .roundEnd | .lineStuck | .lineRestored => false

/-! ### The feed (R192, R194, R197) -/

/-- Feed numbers run on by one up to the next feed number (R192). -/
def numberedUpTo (next : Counter) : List FeedRecord → Bool
  | [] => true
  | r :: rs => decide (r.number + BitVec.ofNat 16 (rs.length + 1) = next) && numberedUpTo next rs

/-- The feed holds at most 32 records, numbered without a break, with the urgent ones counted, and losses are pending only
while it is full (R192, R194, R197). -/
def Feed.sound (f : Feed) : Bool :=
  decide (f.records.length ≤ Config.feedPlaces) && numberedUpTo f.next f.records &&
    decide (f.urgentCount = (f.records.filter (·.urgent)).length) &&
    (decide (f.gap = 0) || decide (f.records.length = Config.feedPlaces)) && (!f.gapUrgent || decide (f.gap ≠ 0))

/-- The image's items are in their ranges (R5). -/
def Image.legal (i : Image) : Bool :=
  decide (2 ≤ i.groupSize ∧ i.groupSize ≤ 32) && decide (1 ≤ i.windows ∧ i.windows ≤ 4) &&
    decide (128 ≤ i.period ∧ i.period ≤ 16383) && decide (2 ≤ i.absenceLimit ∧ i.absenceLimit ≤ 15) &&
    decide (1 ≤ i.retryLimit ∧ i.retryLimit ≤ 15) && decide (i.staleLimit ≤ 255) &&
    decide (1 ≤ i.watermark ∧ i.watermark ≤ 32) &&
    channelOrder.all (fun c =>
      decide ((i.channel c).la ≤ 4095) && decide ((i.channel c).lw ≤ 4095) && decide ((i.channel c).hw ≤ 4095) &&
        decide ((i.channel c).ha ≤ 4095) && decide ((i.channel c).hysteresis ≤ 255) &&
        decide (1 ≤ (i.channel c).persistence ∧ (i.channel c).persistence ≤ 15))

/-- IRQ as R197 gives it, released while RST is asserted (R3). -/
def State.irqSound (s : State) : Bool :=
  decide (s.feed.irq =
    (!s.rst && (decide (s.image.watermark ≤ s.feed.records.length) || s.feed.records.any (·.urgent))))

/-- The feed with IRQ, over an image in range. -/
def State.feedSound (s : State) : Bool := s.feed.sound && s.image.legal && s.irqSound

/-! ### The condition table (R40 to R43, R64) -/

/-- An entry is active, unacknowledged, or both; its level is not NORMAL; an own-origin entry is not orphaned (R40, R41). -/
def Entry.sound (own : StationId) (e : Entry) : Bool :=
  (e.active || e.ackedBy.isNone) && decide (e.level ≠ .normal) && (decide (e.origin ≠ own) || !e.orphaned)

/-- The keys are distinct, in order; there is room as R43 reserves it; every entry is sound. -/
def State.tableSound (s : State) : Bool :=
  decide (s.table.entries.Pairwise (fun a b => a.index < b.index)) &&
    decide ((remoteEntries s.id s.table.entries).length ≤ Config.remotePlaces) &&
    s.table.entries.all (Entry.sound s.id)

/-- A remote entry is orphaned exactly when the roster holds its origin ABSENT (R64). -/
def State.orphansSound (s : State) : Bool :=
  s.table.entries.all (fun e => decide (e.origin = s.id) || decide (e.orphaned = s.holdsAbsent e.origin))

/-- `a` stands above `b` in the view order: the tests of R46 in turn. -/
abbrev Entry.standsAbove (a b : Entry) : Prop :=
  b.severity < a.severity ∨
    (a.severity = b.severity ∧
      ((a.acked = false ∧ b.acked = true) ∨
        (a.acked = b.acked ∧
          (a.firstRound.toNat < b.firstRound.toNat ∨
            (a.firstRound = b.firstRound ∧
              (a.origin < b.origin ∨ (a.origin = b.origin ∧ a.channel < b.channel)))))))

/-! ### The annunciation unit (R163 to R165) -/

/-- The own contribution matches the own-origin entries, and the pins show it while ANN_LINK is released (R164, R165). -/
def State.annSound (s : State) : Bool :=
  decide (s.ann.own = ownContribution s.id s.table.entries) && (s.ann.link || decide (s.ann.code = s.ann.own))

/-! ### Monitors and own-origin entries (R23, R24, R27, R28) -/

/-- An own-origin entry holds what its channel's record holds (R28). -/
def Entry.agreesWith (e : Entry) (r : Record) : Bool :=
  decide (e.level = r.level) && decide (e.seq = r.seq) && decide (e.active = r.active) && decide (e.ackedBy = r.ackedBy) &&
    decide (e.shelved = r.shelved) && decide (e.value = r.value)

/-- A channel's own-origin entry is active exactly when the channel's level is not NORMAL, then with that level, and holds the
record's content (R27, R28). -/
def State.ownEntrySound (s : State) (c : Channel) : Bool :=
  let m := s.monitor c
  decide (m.record.active = decide (m.level ≠ .normal)) && (!m.record.active || decide (m.record.level = m.level)) &&
    (!m.record.active || (s.table.find s.id c).isSome) &&
    s.table.entries.all (fun e => !e.hasKey s.id c || e.agreesWith m.record)

/-- The fault cause is NONE exactly outside FAULT (R24, R26); the count is 0 exactly without a candidate, and the candidate
is another level than the current one (R23). -/
def Monitor.sound (m : Monitor) : Bool :=
  decide ((m.faultCause = .none) ↔ (m.level ≠ .fault)) && decide ((m.count = 0) ↔ (m.candidate = none)) &&
    decide (m.candidate ≠ some m.level)

/-- Every channel's monitor and own-origin entry. -/
def State.monitorsSound (s : State) : Bool := channelOrder.all (fun c => s.ownEntrySound c && (s.monitor c).sound)

/-! ### The notice queue and the frame in flight (R70, R84, R86, R128) -/

/-- The slot of an entry is one of its class (R70). -/
def QueueEntry.slotSound (e : QueueEntry) : Bool :=
  match e.notice with
  | .channel c _ => decide (e.slot = channelSlot c)
  | .ack _ _ _ _ => ackSlots.contains e.slot
  | .replay => decide (e.slot = replaySlot)

/-- The restage flag stands on a CHANNEL entry on the line only, the withdraw flag on an ACK entry on the line only (R69,
R74, R94). -/
def QueueEntry.flagsSound (e : QueueEntry) : Bool :=
  match e.notice with
  | .channel _ _ => (!e.restage || e.onLine) && !e.withdraw
  | .ack _ _ _ _ => (!e.withdraw || e.onLine) && !e.restage
  | .replay => !e.restage && !e.withdraw

/-- Two queue entries acknowledge one key. -/
def QueueEntry.sameTarget (a b : QueueEntry) : Bool :=
  match a.notice with
  | .ack o c _ _ => b.acknowledges o c
  | .channel _ _ | .replay => false

/-- One entry a slot, each in a slot of its class, at most one ACK entry a key, no receipt of this station's own, flags only on
the line, and at most one entry on the line, that only in JOINING or ACTIVE (R70, R71, R78, R84, R86). -/
def State.queueSound (s : State) : Bool :=
  decide ((s.queue.map (·.slot)).Nodup) &&
    decide (s.queue.Pairwise (fun a b => a.sameTarget b = false)) &&
    s.queue.all (fun e => e.slotSound && e.flagsSound && !hasId e.receipts s.id) &&
    decide ((s.queue.filter (·.onLine)).length ≤ 1) &&
    (s.rst || s.station.participates || s.queue.all (fun e => !e.onLine))

/-- The window's part agrees with the queue: a frame in flight exactly outside the role RECEIVER, and then the queue's entry on
the line is CANDIDATE for a CONTENDER and SENDING for a SENDER (R71, R84, R128). -/
def State.flightSound (s : State) : Bool :=
  s.rst ||
    match s.line.window with
    | none => (lineEntry s.queue).isNone
    | some w =>
      s.line.position.inRound && decide ((w.flight = none) ↔ (w.role = .receiver)) &&
        decide ((lineEntry s.queue).map (·.state) =
          match w.role with
          | .contender => some .candidate
          | .sender => some .sending
          | .receiver => none)

/-! ### The station and its line (R1, R2, R102, R105, R118, R156) -/

/-- Nothing is driven outside JOINING and ACTIVE (R1). -/
def State.silentSound (s : State) : Bool := s.station.participates || decide (s.line.tx = [])

/-- The QUIET cause is NONE exactly outside QUIET (R2). -/
def State.causeSound (s : State) : Bool := decide ((s.cause = .none) ↔ (s.station ≠ .quiet))

/-- The position is OFF exactly in SETUP or with the line state STUCK, and then the timer is stopped, no mark is deferred, the
census map is empty; with the line state STUCK the station is STUCK or QUIET, and it is STUCK only then (R102, R105, R110,
R118, R120). -/
def State.positionSound (s : State) : Bool :=
  s.rst ||
    (decide ((s.line.position = .off) ↔ (s.station = .setup ∨ s.line.lineState = .stuck)) &&
      (decide (s.line.position ≠ .off) ||
        (s.line.roundTimer.isNone && !s.line.deferredMark && decide (s.line.censusMap = 0))) &&
      (decide (s.line.lineState = .up) || decide (s.station = .stuck) || decide (s.station = .quiet)) &&
      (decide (s.station ≠ .stuck) || decide (s.line.lineState = .stuck)))

/-- The silence timer is held exactly in LISTEN, and the listen count is below 2 there (R156, R157); a mark is deferred only in
JOINING or ACTIVE (R105). -/
def State.listenSound (s : State) : Bool :=
  decide ((s.silenceTimer.isSome = true) ↔ (s.station = .listen)) && (decide (s.station ≠ .listen) || decide (s.listenCount < 2)) &&
    (!s.line.deferredMark || s.station.participates)

/-- The station and its line. -/
def State.lineSound (s : State) : Bool := s.silentSound && s.causeSound && s.positionSound && s.listenSound

/-! ### SETUP and disabled channels (R37, R38, R67, R73, R148, R198) -/

/-- In SETUP the table, the queue and the feed are empty, and every monitor and roster record is as after a reset. While RST is
asserted the blocks still wait for their reset (log entry 7). -/
def State.setupSound (s : State) : Bool :=
  s.rst || decide (s.station ≠ .setup) ||
    (s.table.entries.isEmpty && s.queue.isEmpty && s.feed.records.isEmpty && decide (s.feed.gap = 0) &&
      decide (s.monitors = Vector.replicate 8 Monitor.reset) && decide (s.roster = Vector.replicate 32 Peer.reset))

/-- A disabled channel keeps its level NORMAL, no candidate, count 0, cause NONE, its timer stopped, and its record as after a
reset except for the shelved field; it has no own-origin entry (R38). -/
def State.disabledSound (s : State) : Bool :=
  channelOrder.all (fun c =>
    (s.image.channel c).enable ||
      (decide (s.monitor c = { Monitor.reset with
          record := { Record.reset with shelved := (s.monitor c).record.shelved } }) &&
        (s.table.find s.id c).isNone))

end Sys2Proof.Machine
end

