-- ==== Sys2Proof/Certificates/Slice0/Obligations.lean ====
section
/-! DEFINITION. The statements for the provers. -/

open Sys2Proof Sys2Proof.Machine

/-! ### The machine as a whole -/

/-- A step runs the command at the front of the queue on the state with the rest of the queue.
Model's choices in it: log entry 1. -/
def Obligations.StepRunsFrontCommand : Prop :=
  ∀ (c : Instr) (s : State), step { s with pending := c :: s.pending } = exec c s

/-- THE MODEL'S CHOICE (log entries 1 and 3): every command, in every state, answers a next state and leaves the waiting commands
alone. Where the command's event cannot happen in the state, the rules say nothing, and the model stays where it is. -/
def Obligations.CommandsAnswerNextAndKeepQueue : Prop :=
  ∀ (c : Instr) (s : State), ∃ t, exec c s = .next t ∧ t.pending = s.pending

/-- A step on an empty queue is one bit time, which reads GRX as given from outside, or else what this station drives: THE MODEL'S
CHOICE (log entries 2, 8, 13, 23). In it, by the rules of chapters 05 and 06: the timers run; the runs are counted outside
SETUP; the position walks the grid, the end gap following the closing gap of the last window at once; the census map, the
sweep and the window take the reading in their own bit times alone, and a receiver's part is dropped at the end of the closing
gap; what is sent moves on. What the bit time brings, and nothing else, joins the queue, in the order of log entry 2: the
expiries of the round and the silence timer; in a station that follows the line, the event of the field in progress, with
what was read; a line found stuck or restored; the expiries of the stale timers. Where R90 or R153 leaves the order open, the
operand is a free value (log entry 5). Nothing else changes. -/
def Obligations.EmptyQueueIsOneBitTime : Prop :=
  ∀ s : State, s.pending = [] → s.rst = false → ∃ t, step s = .next t ∧
    let driven : Bool := s.grxAhead.headD s.gtx
    let size := s.image.groupSize
    let inGroup : Bool := decide (s.station = .joining ∨ s.station = .active)
    let follows : Bool := decide (s.station = .listen ∨ s.station = .quiet) || inGroup
    let first : TakenFirst := if Config.ownerTakesFirst s.bitTimes then .owner else .controller
    let startBit : List Instr := .windowStart driven ::
      (if driven = false ∧ s.line.windowsUsed < s.image.windows ∧ lineEntry s.queue = none ∧
          s.queue.any (fun e => decide (e.state = .waiting ∧
            (s.station = .active ∨ (s.station = .joining ∧ e.notice = .replay)))) = true then
        [.lineFaultAbandon 0 first]
      else [])
    let sent (f : Flight) (b : Nat) : Bool := (f.key ++ f.payload ++ f.crc).getMsbD (b - 1)
    let sends (w : Window) (b : Nat) : List Instr :=
      match w.role, w.flight with
      | .contender, some f =>
        if b < 1 ∨ 10 < b then []
        else if sent f b = true ∧ driven = true then [.contestLost b]
        else if sent f b = false ∧ driven = false then [.lineFaultAbandon b first]
        else if b = 10 then [.keyWon]
        else []
      | .sender, some f =>
        if b < 11 ∨ 54 < b then []
        else if sent f b = driven then [.readBackMismatch b first]
        else if b = 54 then [.frameSentWhole]
        else []
      | _, _ => []
    let windowBrings (b : Nat) : List Instr :=
      match s.line.window, t.line.window with
      | some w, some v =>
        sends w b ++
          (if b = 54 ∧ Instr.frameSentWhole ∉ sends w b then [.frameJudged (v.received.foldl shiftIn 0)] else []) ++
          (if b = 56 + s.id.val ∧ inGroup = true ∧ v.judgement = some .accepted then [.receiptSlot] else []) ++
          (if b = 56 + size ∧ v.role = .sender then [.receiptFieldEnd v.slots] else [])
      | _, _ => []
    let fieldBrings : List Instr :=
      match s.line.position with
      | .round .mark _ => if driven then [] else [.markTrailingEdge]
      | .round .census b => if size ≤ b + 1 then [.censusEnd t.line.censusMap first] else []
      | .round .gapCensus _ => [.sweepStart]
      | .round .sweep b =>
        match t.line.sweep with
        | some p => if 2 ≤ b then [.sweepEnd (p.read.foldl shiftIn 0)] else []
        | none => []
      | .round .gapSweep b => if 1 ≤ b then startBit else []
      | .round (.window _) b => if 59 + size ≤ b then startBit else windowBrings b
      | .round .endGap b => if 3 ≤ b then [.roundEnd] else []
      | .seek | .idle =>
        if driven = true ∧ 7 ≤ s.line.idleRun then [.markRecognised]
        else if s.line.ownMark = true ∧ s.line.tx.length = 1 then [.markUnrecognised]
        else []
      | .round .gapMark _ | .off => []
    let supervisionBrings : List Instr :=
      match s.line.lineState with
      | .up => if s.station ≠ .setup ∧ driven = true ∧ 39 ≤ s.line.drivenRun then [.lineStuck] else []
      | .stuck => if s.station ≠ .setup ∧ driven = false ∧ 63 ≤ s.line.releasedRun then [.lineRestored] else []
    t = { s with
      pending := t.pending, monitors := t.monitors, line := t.line, grxAhead := s.grxAhead.tail
      bitTimes := s.bitTimes + 1, silenceTimer := s.silenceTimer.map (· - 1) } ∧
    (∀ c, t.monitor c =
      { s.monitor c with
        staleTimer := (s.monitor c).staleTimer.map (fun n => n -
          match s.image.bitRate with
          | .k10 => 100
          | .k25 => 40
          | .k50 => 20
          | .k100 => 10) }) ∧
    t.line = { s.line with
      position := t.line.position, roundTimer := s.line.roundTimer.map (· - 1), censusMap := t.line.censusMap
      sweep := t.line.sweep, window := t.line.window, drivenRun := t.line.drivenRun, releasedRun := t.line.releasedRun
      idleRun := t.line.idleRun, tx := s.line.tx.tail } ∧
    (t.line.drivenRun, t.line.releasedRun) =
      (if s.station = .setup then (s.line.drivenRun, s.line.releasedRun)
      else if driven then (s.line.drivenRun + 1, 0) else (0, s.line.releasedRun + 1)) ∧
    (s.station ≠ .setup → t.line.idleRun =
      if driven = true ∧ (s.line.position = .seek ∨ s.line.position = .idle) then s.line.idleRun + 1 else 0) ∧
    t.line.position =
      (match s.line.position with
      | .round .mark b => .round .mark (b + 1)
      | .round .gapMark b => if b = 0 then .round .gapMark 1 else .round .census 0
      | .round .census b => .round .census (if b < size then b + 1 else b)
      | .round .gapCensus _ => .round .sweep 0
      | .round .sweep b => .round .sweep (if s.line.sweep ≠ none ∧ b < 3 then b + 1 else b)
      | .round .gapSweep b => .round .gapSweep (if b = 0 then 1 else b)
      | .round (.window k) b =>
        if b < 58 + size then .round (.window k) (b + 1)
        else if s.line.windowsUsed < s.image.windows then .round (.window k) (59 + size)
        else .round .endGap 0
      | .round .endGap b => .round .endGap (if b < 4 then b + 1 else b)
      | p => p) ∧
    (∀ b, s.line.position = .round .census b → b < size → ∀ k : StationId,
      hasId t.line.censusMap k = (hasId s.line.censusMap k || (driven && decide (k.val = b)))) ∧
    ((∀ b, s.line.position ≠ .round .census b) → t.line.censusMap = s.line.censusMap) ∧
    (∀ b, s.line.position = .round .sweep b → b < 3 → t.line.sweep = s.line.sweep.map (fun p =>
      { p with
        participant := p.participant && (p.code.getMsbD b || !driven)
        sent := p.sent ++ [p.participant && p.code.getMsbD b], read := p.read ++ [driven] })) ∧
    ((∀ b, s.line.position ≠ .round .sweep b) → t.line.sweep = s.line.sweep) ∧
    (∀ k b w, s.line.position = .round (.window k) b → s.line.window = some w →
      (b < 58 + size ∨ w.role ≠ .receiver → t.line.window = some { w with
        received := if 1 ≤ b ∧ b ≤ 54 then w.received ++ [!driven] else w.received
        slots := if 57 ≤ b ∧ b < 57 + size ∧ w.role = .sender ∧ driven = true then w.slots ||| 1#32 <<< (b - 57)
          else w.slots }) ∧
      (58 + size ≤ b → w.role = .receiver → t.line.window = none)) ∧
    ((∀ k b, s.line.position ≠ .round (.window k) b) → t.line.window = s.line.window) ∧
    t.pending =
      (if s.line.roundTimer = some 1 then [.roundTimerExpiry] else []) ++
        (if s.silenceTimer = some 1 then [.silenceTimerExpiry] else []) ++
        (if follows then fieldBrings else []) ++ supervisionBrings ++
        (channelOrder.filter (fun c =>
          match (s.monitor c).staleTimer with
          | some n => decide (0 < n ∧ n ≤ s.image.bitRate.bitMicros)
          | none => false)).map Instr.staleTimerExpiry

/-! ### What every step keeps -/

/-- The feed holds at most 32 records with consecutive numbers, counts its urgent records, has losses pending only while full,
and drives IRQ from the count, the watermark and the urgent records, the image being in range. -/
def Obligations.FeedStaysSound : Prop :=
  ∀ s t : State, s.feedSound = true → step s = .next t → t.feedSound = true

/-- The table never holds two entries of one key nor more than 88 remote ones; every entry is active, unacknowledged, or both,
with a level other than NORMAL; no own-origin entry is orphaned. -/
def Obligations.TableStaysSound : Prop :=
  ∀ s t : State, s.tableSound = true → step s = .next t → t.tableSound = true

/-- A remote entry is orphaned exactly while the roster holds its origin ABSENT. -/
def Obligations.OrphansFollowTheRoster : Prop :=
  ∀ s t : State, s.orphansSound = true → step s = .next t → t.orphansSound = true

/-- The own contribution always matches the own-origin entries, and the pins show it while ANN_LINK is released. -/
def Obligations.OwnContributionStaysCurrent : Prop :=
  ∀ s t : State, s.annSound = true → step s = .next t → t.annSound = true

/-- An own-origin entry is active exactly while its channel is not NORMAL, then with the channel's level, and holds what the
record holds; the fault cause, the candidate and the count of each monitor agree with its level. -/
def Obligations.OwnEntriesMatchTheirRecords : Prop :=
  ∀ s t : State, s.monitorsSound = true → step s = .next t → t.monitorsSound = true

/-- One queue entry a slot, in a slot of its class, at most one ACK entry a key, none with a receipt of this station's own; at most
one is on the line, and that only in JOINING or ACTIVE. -/
def Obligations.QueueStaysSound : Prop :=
  ∀ s t : State, s.queueSound = true → step s = .next t → t.queueSound = true

/-- Nothing is driven outside JOINING and ACTIVE; the QUIET cause is NONE exactly outside QUIET; the position is OFF exactly in
SETUP or on a stuck line; the silence timer is held exactly in LISTEN.
Model's choices in it: log entry 13. -/
def Obligations.LineStaysSound : Prop :=
  ∀ s t : State, s.lineSound = true → step s = .next t → t.lineSound = true

/-- A queue entry is CANDIDATE exactly while this station is CONTENDER with a frame in flight, and SENDING exactly while it is
SENDER. The other two properties are premises: outside them a state may hold a part in a window without a round.
Model's choices in it: log entry 13. -/
def Obligations.FlightAgreesWithTheQueue : Prop :=
  ∀ s t : State, s.queueSound = true → s.lineSound = true → s.flightSound = true → step s = .next t → t.flightSound = true

/-- In SETUP the table, the queue and the feed are empty and every monitor and roster record is as after a reset; a disabled
channel keeps its reset values, its shelved flag apart, and has no own-origin entry. -/
def Obligations.SetupHoldsNothing : Prop :=
  ∀ s t : State, (s.setupSound && s.disabledSound) = true → step s = .next t → (t.setupSound && t.disabledSound) = true

/-- The state after reset has every property above. -/
def Obligations.ResetIsSound : Prop :=
  State.reset.feedSound = true ∧ State.reset.tableSound = true ∧ State.reset.orphansSound = true ∧
    State.reset.annSound = true ∧ State.reset.monitorsSound = true ∧ State.reset.queueSound = true ∧
    State.reset.lineSound = true ∧ State.reset.flightSound = true ∧
    (State.reset.setupSound && State.reset.disabledSound) = true

/-- The station id changes at no command but RST_RELEASED and POWER_ON (RESTART does not sample the straps); outside SETUP the
image changes at no command but these two. -/
def Obligations.IdAndSealedImageAreKept : Prop :=
  ∀ (c : Instr) (s t : State), (∀ straps, c ≠ .rstReleased straps) → (∀ straps scs cfs, c ≠ .powerOn straps scs cfs) →
    exec c s = .next t → t.id = s.id ∧ (s.station ≠ .setup → t.image = s.image)

/-! ### Power-on, RST and the pins -/

/-- RST released, or the power-on reset ended: every block holds its reset value, the image its defaults, and the id is that of
the straps. The port waits for SCS, and the assembler for CFS, where it is found asserted. The queue of waiting commands, and
what is reset by nobody (the levels of the pins), stay.
Model's choices in it: log entries 13, 14; for RST_RELEASED where RST was not asserted, 19; for POWER_ON where RST was, 7; the
input GRX and the model's count of bit times stay too, log entries 5, 23. -/
def Obligations.ResetsHoldTheResetValues : Prop :=
  ∀ (straps : BitVec 5) (scs cfs : Bool) (s : State),
    let fresh (scs cfs : Bool) : State :=
      { pending := s.pending, rst := false, scsPin := scs, cfsPin := cfs, grxAhead := s.grxAhead, bitTimes := s.bitTimes
        id := Fin.ofNat 32 straps.toNat
        station := .setup, cause := .none, isSealed := false
        image :=
          { groupSize := 8, windows := 2, bitRate := .k50, period := 512, absenceLimit := 3, retryLimit := 6
            staleLimit := 50, watermark := 1
            channels := Vector.replicate 8
              { enable := false, la := 0, lw := 0, hw := 4095, ha := 4095, hysteresis := 16, persistence := 3 } }
        listenCount := 0, silenceTimer := none
        assembler := { framing := false, taken := 0, count := 0, waiting := cfs }, framingErrors := 0
        monitors := Vector.replicate 8
          { level := .normal, candidate := none, count := 0, lastValue := 0, staleTimer := none, faultCause := .none
            record := { seq := 0, level := .normal, active := false, ackedBy := none, shelved := false, value := 0 } }
        table := { entries := [], generation := 0, drops := 0 }, queue := []
        line :=
          { lineState := .up, position := .off, roundTimer := none, deferredMark := false, ownMark := false, round := 0
            censusMap := 0, sweep := none, sweepResult := 0, sweepSent := 0, windowsUsed := 0, window := none
            drivenRun := 0, releasedRun := 0, idleRun := 0, crcErrors := 0, malformed := 0, abandons := 0, tx := [] }
        roster := Vector.replicate 32 { presence := .absent, missed := 0, lastSeen := 0 }
        ann := { own := 0, code := 0, link := false }
        port :=
          { phase := if scs then .blocked else .idle, shift := 0, bits := 0, command := none, args := [], response := []
            sent := 0, aborts := 0, restartPending := false }
        feed := { records := [], next := 0, gap := 0, gapUrgent := false, urgentCount := 0, irq := false } }
    exec (.rstReleased straps) s = .next (fresh s.scsPin s.cfsPin) ∧
      exec (.powerOn straps scs cfs) s = .next (fresh scs cfs)

/-- The pins. With RST released: GTX is low where a station of the group has a bit to send, a sweep bit to drive or a start bit; IRQ,
ANN_S1, ANN_S0, ANN_U and ANN_LINK are open drains that follow the feed and the annunciation unit; SDO follows the phase and
the response. RST asserted: the station is in SETUP with cause NONE, no pin is driven, the transaction and the open sample
frame are discarded; and while it stays asserted, only the end of a reset or a change of SCS or CFS changes the state.
Model's choices in it: log entries 7, 13, 16, 23. -/
def Obligations.RstReleasesEveryPin : Prop :=
  (∀ s : State, s.rst = false →
    let inGroup : Bool := decide (s.station = .joining ∨ s.station = .active)
    let sweepBit : Bool :=
      match s.line.position, s.line.sweep with
      | .round .sweep b, some p => p.participant && p.code.getMsbD b
      | _, _ => false
    let startBit : Bool :=
      (match s.line.position with
        | .round .gapSweep b => decide (1 ≤ b)
        | .round (.window _) b => decide (59 + s.image.groupSize ≤ b)
        | _ => false) &&
      decide (s.line.windowsUsed < s.image.windows ∧ lineEntry s.queue = none) &&
      s.queue.any (fun e => decide (e.state = .waiting ∧
        (s.station = .active ∨ (s.station = .joining ∧ e.notice = .replay))))
    let drives : Bool := inGroup && (s.line.tx.headD false || sweepBit || startBit)
    let drain (asserted : Bool) : PinLevel := if asserted then .low else .floating
    s.pins =
      { gtx := if drives then .low else .high
        grx := if s.grxAhead.headD drives then .low else .high
        cfs := if s.cfsPin then .low else .high
        scs := if s.scsPin then .low else .high
        sdo := match s.port.phase with
          | .idle | .blocked => .floating
          | .command | .arguments | .spent => .high
          | .response =>
            if (s.port.response.getD (s.port.sent / 8) 0xFF#8).getMsbD (s.port.sent % 8) then .high else .low
        irq := drain s.feed.irq, annS1 := drain (s.ann.code.getLsbD 2), annS0 := drain (s.ann.code.getLsbD 1)
        annU := drain (s.ann.code.getLsbD 0), annLink := drain s.ann.link, rst := .high }) ∧
  (∀ s : State, s.rst = false → ∃ t, exec .rstAsserted s = .next t ∧ t.rst = true ∧ t.station = .setup ∧ t.cause = .none ∧
    t.gtx = false ∧ t.irqPin = false ∧ t.annS1 = false ∧ t.annS0 = false ∧ t.annU = false ∧ t.annLink = false ∧
    t.sdo = none ∧ t.pins =
      { gtx := .high, grx := t.pins.grx, cfs := if s.cfsPin then .low else .high, scs := if s.scsPin then .low else .high
        sdo := .floating, irq := .floating, annS1 := .floating, annS0 := .floating, annU := .floating, annLink := .floating
        rst := .low } ∧
    t.line.tx = [] ∧ t.line.window = none ∧ t.ann.link = false ∧ t.ann.code = t.ann.own ∧
    t.feed.irq = false ∧ t.port.phase = .idle ∧ t.port.command = none ∧ t.assembler.framing = false ∧
    t.framingErrors = s.framingErrors ∧ t.id = s.id ∧ t.image = s.image) ∧
  (∀ (c : Instr) (s t : State), s.rst = true → (∀ straps, c ≠ .rstReleased straps) →
    (∀ straps scs cfs, c ≠ .powerOn straps scs cfs) → exec c s = .next t →
    t = { s with scsPin := t.scsPin, cfsPin := t.cfsPin })

/-! ### The host port. A request stands for its bytes on SDI: the model's choice, log entry 12 -/

/-- SCS opens a transaction in IDLE, ends one in any other phase, and counts an abort where a request was not complete: released at
once, in the middle of the command byte, or with any of its argument bits missing, it reaches no block. After the transaction
that carried RESTART the port takes its reset state.
Model's choices in it: log entries 3, 12. -/
def Obligations.ScsOpensAndEndsTransactions : Prop :=
  ∀ s : State, s.rst = false →
    (s.port.phase = .idle →
      exec .scsAsserted s = .next
        { s with
          scsPin := true
          port := { phase := .command, shift := 0, bits := 0, command := none, args := [], response := [], sent := 0
                    aborts := s.port.aborts, restartPending := false } }) ∧
    (s.port.phase ≠ .idle → exec .scsAsserted s = .next { s with scsPin := true }) ∧
    ∀ bits : List Bool,
    (s.port.phase = .idle → exec (.scsReleased bits) s = .next { s with scsPin := false }) ∧
    ((s.port.phase = .response ∨ s.port.phase = .spent ∨ s.port.phase = .blocked ∨
        (s.port.phase = .arguments ∧ bits = []) ∨ (s.port.phase = .command ∧ s.port.bits ≠ 0 ∧ bits = []) ∨
        (s.port.phase = .command ∧ s.port.bits = 0 ∧ (bits.length < 8 ∨
          ∃ (c : HostCommand) (rest : List Bool), bits = msbBits c.code ++ rest ∧ rest.length < 8 * c.argCount))) →
      ∃ t, exec (.scsReleased bits) s = .next t ∧ t = { s with scsPin := false, port := t.port } ∧
      t.port.phase = .idle ∧ t.port.command = none ∧ t.port.args = [] ∧ t.port.response = [] ∧ t.port.bits = 0 ∧
      t.port.restartPending = false ∧
      t.port.aborts =
        if s.port.phase = .command ∨ s.port.phase = .arguments then
          (if s.port.aborts = 0xFFFF#16 then 0xFFFF#16 else s.port.aborts + 1)
        else if s.port.restartPending = true ∧ s.port.phase ≠ .blocked then 0
        else s.port.aborts)

/-- A byte that names no command answers BAD_COMMAND and reaches no block. In IDLE, SPENT and BLOCKED no host command is taken.
In RESPONSE a byte clocks out eight bits of the response, and after its last bit the phase is SPENT.
Model's choices in it: log entry 12. -/
def Obligations.BytesOutsideARequestReachNoBlock : Prop :=
  (∀ (code : Byte) (s : State), s.transactionOpen → (∀ c : HostCommand, c.code ≠ code) →
    exec (.badCommand code) s = .next
      { s with port := { s.port with phase := .response, shift := 0, bits := 0, response := [0x01#8], sent := 0 } }) ∧
  (∀ (c : Instr) (s : State), isHostRequest c = true →
    (s.port.phase = .idle ∨ s.port.phase = .spent ∨ s.port.phase = .blocked) → exec c s = .next s) ∧
  (∀ (code : Byte) (s : State), s.rst = false → s.port.phase = .response → s.port.sent < 8 * s.port.response.length →
    exec (.badCommand code) s = .next
      { s with
        port := { s.port with
          sent := min (s.port.sent + 8) (8 * s.port.response.length)
          phase := if 8 * s.port.response.length ≤ s.port.sent + 8 then .spent else .response } })

/-- STATUS and COUNTERS_READ answer with the station as it stands and change nothing else. -/
def Obligations.StatusAndCountersReadAnswer : Prop :=
  ∀ s : State, s.transactionOpen →
    exec .status s = .next (s.answered .status []
      ([0x00#8, s.station.code, s.cause.code, s.line.lineState.code] ++ bytes16 s.line.round ++
        [byteOf s.table.entries.length] ++ bytes16 s.table.generation ++
        [byteOf s.queue.length, byteOf s.feed.records.length] ++ bytes16 s.feed.gap)) ∧
    exec .countersRead s = .next (s.answered .countersRead []
      ([0x00#8] ++ bytes16 s.framingErrors ++ bytes16 s.table.drops ++ bytes16 s.line.crcErrors ++
        bytes16 s.line.malformed ++ [s.line.abandons] ++ bytes16 s.port.aborts ++
        [s.line.position.code, s.line.sweepResult.setWidth 8, s.ann.own.setWidth 8, if s.ann.link then 0x01#8 else 0x00#8,
         s.ann.code.setWidth 8]))

/-- COUNTERS_CLEAR sets six counters to 0 and nothing else. -/
def Obligations.CountersClearSetsSixCounters : Prop :=
  ∀ s : State, s.transactionOpen →
    exec .countersClear s = .next
      (({ s with
          framingErrors := 0
          table := { s.table with drops := 0 }
          line := { s.line with crcErrors := 0, malformed := 0, abandons := 0 }
          port := { s.port with aborts := 0 } } : State).answered .countersClear [] [0x00#8])

/-- CONFIG_READ answers the value of the item with the number given, and BAD_ITEM where no item has it. -/
def Obligations.ConfigReadAnswersTheItem : Prop :=
  ∀ (item : Byte) (s : State), s.transactionOpen →
    (∀ i : Item, i.number = item.toNat →
      exec (.configRead item) s = .next
        (s.answered .configRead [item] (0x00#8 :: bytes16 (BitVec.ofNat 16 (s.image.read s.id i))))) ∧
    ((∀ i : Item, i.number ≠ item.toNat) →
      exec (.configRead item) s = .next (s.answered .configRead [item] [0x03#8, 0xFF#8, 0xFF#8]))

/-- CONFIG_WRITE makes its checks in order: the state, the item, the range. A write that passes them stores that one item; the
feed judges IRQ afresh when it is the watermark. -/
def Obligations.ConfigWriteStoresOneItem : Prop :=
  ∀ (item : Byte) (value : BitVec 16) (s : State), s.transactionOpen →
    let args : List Byte := [item, value.extractLsb' 8 8, value.extractLsb' 0 8]
    (s.station ≠ .setup → exec (.configWrite item value) s = .next (s.answered .configWrite args [0x02#8])) ∧
    (s.station = .setup → (∀ i : Item, i.number = item.toNat → i = .stationId) →
      exec (.configWrite item value) s = .next (s.answered .configWrite args [0x03#8])) ∧
    (∀ i : Item, s.station = .setup → i.number = item.toNat → i ≠ .stationId →
      (i.inRange value.toNat = false →
        exec (.configWrite item value) s = .next (s.answered .configWrite args [0x04#8])) ∧
      (i.inRange value.toNat = true → ∃ t, exec (.configWrite item value) s = .next t ∧
        t = ({ s with image := t.image, feed := t.feed } : State).answered .configWrite args [0x00#8] ∧
        t.image.read s.id i = value.toNat ∧ (∀ j : Item, j ≠ i → t.image.read s.id j = s.image.read s.id j) ∧
        t.feed = { s.feed with
          irq := if i = .watermark then
              decide (value.toNat ≤ s.feed.records.length) || decide (0 < s.feed.urgentCount)
            else s.feed.irq }))

/-- A START whose checks all pass seals the image, starts the stale timers of the enabled channels, puts the line engine in SEEK
and enters LISTEN with the listen count 0 and the silence timer at 3P. Nothing else changes. -/
def Obligations.StartEntersListen : Prop :=
  ∀ s : State, s.transactionOpen → s.station = .setup → s.id.val < s.image.groupSize →
    21 + s.image.groupSize + s.image.windows * (59 + s.image.groupSize) ≤ s.image.period →
    (∀ c, (s.image.channel c).enable = true →
      (s.image.channel c).la ≤ (s.image.channel c).lw ∧ (s.image.channel c).lw < (s.image.channel c).hw ∧
        (s.image.channel c).hw ≤ (s.image.channel c).ha) →
    ∃ t, exec .start s = .next t ∧
      t = ({ s with
          isSealed := true, station := .listen, cause := .none, listenCount := 0
          silenceTimer := some (3 * s.image.period), monitors := t.monitors
          line := { s.line with position := .seek, drivenRun := 0, releasedRun := 0, idleRun := 0 } } : State).answered .start []
        [0x00#8, 0xFF#8] ∧
      ∀ c, t.monitor c =
        if (s.image.channel c).enable then
          { s.monitor c with
            staleTimer := if s.image.staleLimit = 0 then none else some (s.image.staleLimit * 10000) }
        else s.monitor c

/-- START outside SETUP is refused; in SETUP the first check that fails names its item, and nothing changes. -/
def Obligations.StartNamesTheFirstFailingItem : Prop :=
  ∀ s : State, s.transactionOpen →
    let ordered (c : Channel) : Prop := (s.image.channel c).enable = true →
      (s.image.channel c).la ≤ (s.image.channel c).lw ∧ (s.image.channel c).lw < (s.image.channel c).hw ∧
        (s.image.channel c).hw ≤ (s.image.channel c).ha
    let minimum := 21 + s.image.groupSize + s.image.windows * (59 + s.image.groupSize)
    (s.station ≠ .setup → exec .start s = .next (s.answered .start [] [0x02#8, 0xFF#8])) ∧
    (s.station = .setup → s.image.groupSize ≤ s.id.val →
      exec .start s = .next (s.answered .start [] [0x05#8, 0x00#8])) ∧
    (s.station = .setup → s.id.val < s.image.groupSize → s.image.period < minimum →
      exec .start s = .next (s.answered .start [] [0x05#8, 0x03#8])) ∧
    (∀ c : Channel, s.station = .setup → s.id.val < s.image.groupSize → minimum ≤ s.image.period → (∀ d < c, ordered d) →
      (s.image.channel c).enable = true →
      ((s.image.channel c).lw < (s.image.channel c).la →
        exec .start s = .next (s.answered .start [] [0x05#8, byteOf (18 + 8 * c.val)])) ∧
      ((s.image.channel c).la ≤ (s.image.channel c).lw → (s.image.channel c).hw ≤ (s.image.channel c).lw →
        exec .start s = .next (s.answered .start [] [0x05#8, byteOf (19 + 8 * c.val)])) ∧
      ((s.image.channel c).la ≤ (s.image.channel c).lw → (s.image.channel c).lw < (s.image.channel c).hw →
        (s.image.channel c).ha < (s.image.channel c).hw →
        exec .start s = .next (s.answered .start [] [0x05#8, byteOf (20 + 8 * c.val)])))

/-- RESTART, in every station state: every block as after a reset but for the image, which is unsealed, and the id; the port
ends the transaction with OK and takes its own reset when SCS is released. -/
def Obligations.RestartKeepsImageAndId : Prop :=
  ∀ s : State, s.transactionOpen →
    exec .restart s = .next
      (({ State.reset with
          pending := s.pending, rst := s.rst, scsPin := s.scsPin, cfsPin := s.cfsPin, grxAhead := s.grxAhead
          bitTimes := s.bitTimes, id := s.id, image := s.image
          assembler := { framing := false, taken := 0, count := 0, waiting := s.cfsPin }
          port := { s.port with restartPending := true } } : State).answered .restart [] [0x00#8])

/-- QUIET is refused in SETUP and changes nothing in QUIET. From LISTEN and STUCK, and from JOINING and ACTIVE with no entry on
the line, it sets the cause HOST, stops the silence timer, writes an urgent STATION_QUIET and releases ANN_LINK; from
JOINING and ACTIVE the line is released with it.
Model's choices in it: log entry 13. -/
def Obligations.QuietRequestEntersQuiet : Prop :=
  ∀ s : State, s.transactionOpen →
    let quiet (line : LineEngine) : State :=
      { s with
        station := .quiet, cause := .host, silenceTimer := none, line := line
        feed := s.feed.arrive s.image.watermark s.line.round true (.stationQuiet .host)
        ann := { s.ann with link := false, code := s.ann.own } }
    (s.station = .setup → exec .quiet s = .next (s.answered .quiet [] [0x02#8])) ∧
    (s.station = .quiet → exec .quiet s = .next (s.answered .quiet [] [0x00#8])) ∧
    (s.station = .listen ∨ s.station = .stuck →
      exec .quiet s = .next ((quiet s.line).answered .quiet [] [0x00#8])) ∧
    (s.station = .joining ∨ s.station = .active → lineEntry s.queue = none → ∃ t, exec .quiet s = .next t ∧
      t = (quiet t.line).answered .quiet [] [0x00#8] ∧ t.line.tx = [] ∧ t.line.deferredMark = false ∧
      t.line.position = s.line.position ∧ t.line.roundTimer = s.line.roundTimer ∧ t.line.censusMap = s.line.censusMap ∧
      t.line.round = s.line.round ∧ t.line.abandons = s.line.abandons)

/-- A station that leaves JOINING or ACTIVE by a QUIET request or on a stuck line takes the entry on the line: a CANDIDATE as LOST, a
SENDING entry as an attempt without receipts, in both cases by the steps of R85 with the flags first, and a REPLAY entry that
was SENDING rests. The records that this writes stand before STATION_QUIET or LINE_STUCK. The abandon counter does not move.
Model's choices in it: log entries 13, 25. -/
def Obligations.LeavingTheGroupTakesTheEntryOnTheLine : Prop :=
  ∀ (s : State) (e : QueueEntry) (w : Window) (f : Flight) (command : Instr) (last : FeedBody),
    (s.station = .joining ∨ s.station = .active) → lineEntry s.queue = some e → s.queueSound = true →
    s.line.window = some w → w.flight = some f →
    ((command = .quiet ∧ last = .stationQuiet .host ∧ s.transactionOpen) ∨
      (command = .lineStuck ∧ last = .lineStuck ∧ s.rst = false ∧ s.line.lineState = .up)) →
    let taken := if e.state = .candidate then s.lostPart e
      else if e.notice = .replay then s.replayRests e
      else s.attemptMade 0 (f.payload.extractLsb' 25 8) e
    ∃ t, exec command s = .next t ∧ t.queue = taken.1 ∧
      t.feed = (s.feed.recordAll s.image.watermark s.line.round taken.2).arrive s.image.watermark s.line.round true last ∧
      (command = .quiet → t.station = .quiet ∧ t.cause = .host ∧ t.line.position = s.line.position) ∧
      (command = .lineStuck → t.station = .stuck ∧ t.cause = .none ∧ t.line.position = .off) ∧
      t.line.tx = [] ∧ t.gtx = false ∧ t.line.abandons = s.line.abandons ∧ t.line.deferredMark = false ∧
      t.ann = { s.ann with link := false, code := s.ann.own } ∧ t.table = s.table ∧ t.monitors = s.monitors ∧
      t.roster = s.roster ∧ t.image = s.image ∧ t.id = s.id ∧
      (∀ v, t.line.window = some v → v.role = .receiver ∧ v.flight = none)

/-- RESUME in QUIET sets the cause NONE and enters LISTEN on a line that is UP, with the listen count 0 and the silence timer at
3P, and STUCK on a stuck line; it clears nothing and writes no record. Elsewhere it is refused. -/
def Obligations.ResumeLeavesQuiet : Prop :=
  ∀ s : State, s.transactionOpen →
    (s.station ≠ .quiet → exec .resume s = .next (s.answered .resume [] [0x02#8])) ∧
    (s.station = .quiet → s.line.lineState = .up →
      exec .resume s = .next
        (({ s with
            station := .listen, cause := .none, listenCount := 0, silenceTimer := some (3 * s.image.period) } : State).answered
          .resume [] [0x00#8])) ∧
    (s.station = .quiet → s.line.lineState = .stuck →
      exec .resume s = .next (({ s with station := .stuck, cause := .none } : State).answered .resume [] [0x00#8]))

/-- VIEW answers the entry above which exactly `rank` entries stand in the view order, and NONE past the last one; ENTRY answers
the entry of a key. Both give the generation of the moment and change nothing. -/
def Obligations.ViewAndEntryReadTheTable : Prop :=
  ∀ s : State, s.transactionOpen → s.tableSound = true →
    (∀ (rank : Byte) (e : Entry), e ∈ s.table.entries →
      (s.table.entries.filter (fun f => decide (f.standsAbove e))).length = rank.toNat →
      exec (.view rank) s = .next
        (s.answered .view [rank] (0x00#8 :: e.bytes ++ bytes16 s.table.generation))) ∧
    (∀ rank : Byte, s.table.entries.length ≤ rank.toNat →
      exec (.view rank) s = .next
        (s.answered .view [rank] (0x0E#8 :: List.replicate 12 0xFF#8 ++ bytes16 s.table.generation))) ∧
    (∀ origin channel : Byte, (31 < origin.toNat ∨ 7 < channel.toNat) →
      exec (.entry origin channel) s = .next
        (s.answered .entry [origin, channel] (0x04#8 :: List.replicate 14 0xFF#8))) ∧
    (∀ (origin channel : Byte) (e : Entry), e ∈ s.table.entries → e.origin.val = origin.toNat →
      e.channel.val = channel.toNat →
      exec (.entry origin channel) s = .next
        (s.answered .entry [origin, channel] (0x00#8 :: e.bytes ++ bytes16 s.table.generation))) ∧
    (∀ origin channel : Byte, origin.toNat ≤ 31 → channel.toNat ≤ 7 →
      (∀ e ∈ s.table.entries, e.origin.val = origin.toNat → e.channel.val ≠ channel.toNat) →
      exec (.entry origin channel) s = .next
        (s.answered .entry [origin, channel] (0x06#8 :: List.replicate 14 0xFF#8)))

/-- An ACK request makes its checks in order; one that passes them creates an ACK entry in the lowest free ACK slot, youngest in
age order, and changes nothing else. -/
def Obligations.AckRequestQueuesAnAcknowledgement : Prop :=
  ∀ (origin channel seq : Byte) (s : State), s.transactionOpen →
    let answer (t : State) (response : List Byte) : Host.Outcome State Fault Refusal :=
      .next (t.answered .ack [origin, channel, seq] response)
    let result := exec (.ack origin channel seq) s
    (s.station = .setup → result = answer s [0x02#8, 0xFF#8]) ∧
    (s.station ≠ .setup → 31 < origin.toNat ∨ 7 < channel.toNat → result = answer s [0x04#8, 0xFF#8]) ∧
    (∀ (o : StationId) (c : Channel), s.station ≠ .setup → o.val = origin.toNat → c.val = channel.toNat →
      (s.table.find o c = none → result = answer s [0x06#8, 0xFF#8]) ∧
      (∀ e, s.table.find o c = some e →
        (e.seq ≠ seq → result = answer s [0x07#8, 0xFF#8]) ∧
        (e.seq = seq → e.ackedBy ≠ none → result = answer s [0x08#8, 0xFF#8]) ∧
        (e.seq = seq → e.ackedBy = none → s.queue.any (fun q => q.acknowledges o c) = true →
          result = answer s [0x09#8, 0xFF#8]) ∧
        (e.seq = seq → e.ackedBy = none → s.queue.any (fun q => q.acknowledges o c) = false →
          (∀ k ∈ ackSlots, (slotEntry k s.queue).isSome = true) → result = answer s [0x0A#8, 0xFF#8]) ∧
        (∀ k ∈ ackSlots, e.seq = seq → e.ackedBy = none → s.queue.any (fun q => q.acknowledges o c) = false →
          (∀ j ∈ ackSlots, j < k → (slotEntry j s.queue).isSome = true) → slotEntry k s.queue = none →
          result = answer
            { s with
              queue := s.queue ++
                [{ slot := k, notice := .ack o c seq e.severity, state := .waiting, restage := false, withdraw := false
                   attempts := 0, receipts := 0 }] }
            [0x00#8, byteOf k.val])))

/-- SHELVE and UNSHELVE set the flag; they change nothing where it stands so already. With an own-origin entry a change counts
seq, refreshes the value, changes the entry with it and writes ENTRY_CHANGED, makes an ACK entry of the key stale, and stages
the channel's notice as a change; the other queue entries stay. -/
def Obligations.ShelvingCountsSeqWithAnOwnEntry : Prop :=
  ∀ (flag : Bool) (channel : Byte) (s : State), s.transactionOpen →
    let command : Instr := if flag then .shelve channel else .unshelve channel
    let answer (t : State) (status : Byte) : State := t.answered (if flag then .shelve else .unshelve) [channel] [status]
    (s.station = .setup → exec command s = .next (answer s 0x02#8)) ∧
    (s.station ≠ .setup → 7 < channel.toNat → exec command s = .next (answer s 0x04#8)) ∧
    (∀ c : Channel, s.station ≠ .setup → c.val = channel.toNat →
      ((s.monitor c).record.shelved = flag → exec command s = .next (answer s 0x00#8)) ∧
      ((s.monitor c).record.shelved ≠ flag → s.table.find s.id c = none →
        exec command s = .next (answer (s.setMonitor c
          { s.monitor c with record := { (s.monitor c).record with shelved := flag } }) 0x00#8)) ∧
      (∀ e, (s.monitor c).record.shelved ≠ flag → s.table.find s.id c = some e → s.queueSound = true →
        ∃ t, exec command s = .next t ∧
          t = answer { s with
            monitors := t.monitors, table := t.table, queue := t.queue, ann := t.ann, feed := t.feed } 0x00#8 ∧
          t.monitor c =
            { s.monitor c with
              record := { (s.monitor c).record with
                shelved := flag, seq := (s.monitor c).record.seq + 1, value := (s.monitor c).lastValue } } ∧
          (∀ d, d ≠ c → t.monitor d = s.monitor d) ∧
          t.table.find s.id c = some
            { e with
              shelved := flag, seq := (s.monitor c).record.seq + 1, value := (s.monitor c).lastValue
              changedRound := s.line.round } ∧
          (∀ o d, ¬(o = s.id ∧ d = c) → t.table.find o d = s.table.find o d) ∧
          t.table.generation = s.table.generation + 1 ∧ t.table.drops = s.table.drops ∧
          t.ann.own = ownContribution s.id t.table.entries ∧ t.ann.link = s.ann.link ∧
          t.feed = ((s.feed.arrive s.image.watermark s.line.round (decide (e.level.severity = 3) && e.ackedBy.isNone)
              (.entryChanged s.id c e.level ((s.monitor c).record.seq + 1) e.active e.ackedBy)).recordAll s.image.watermark
            s.line.round (staleRecords [(s.id, c)] s.queue)) ∧
          t.queue.filter (fun q => decide (q.slot ≠ channelSlot c)) =
            (queueAfterStale [(s.id, c)] s.queue).filter (fun q => decide (q.slot ≠ channelSlot c)) ∧
          slotEntry (channelSlot c) t.queue = some
            (match slotEntry (channelSlot c) s.queue with
            | none =>
              { slot := channelSlot c, notice := .channel c false, state := .waiting, restage := false, withdraw := false
                attempts := 0, receipts := 0 }
            | some q =>
              if q.onLine then { q with restage := true, notice := .channel c false }
              else { q with state := .waiting, attempts := 0, receipts := 0, notice := .channel c false })))

/-- PURGE makes its checks in order; one that passes removes every entry of the origin, counts the generation once for each, and
answers their number. The records are one ENTRY_REMOVED for each, in channel order, then ACK_SUPERSEDED for the ACK entries of
these keys that are retired; those on the line are flagged.
Model's choices in it: log entry 10. -/
def Obligations.PurgeRemovesAnAbsentOrigin : Prop :=
  ∀ (origin : Byte) (s : State), s.transactionOpen →
    let answer (t : State) (response : List Byte) : State := t.answered .purge [origin] response
    (s.station = .setup → exec (.purge origin) s = .next (answer s [0x02#8, 0xFF#8])) ∧
    (s.station ≠ .setup → 31 < origin.toNat → exec (.purge origin) s = .next (answer s [0x04#8, 0xFF#8])) ∧
    (∀ o : StationId, s.station ≠ .setup → o.val = origin.toNat →
      (o = s.id → exec (.purge origin) s = .next (answer s [0x0B#8, 0xFF#8])) ∧
      (o ≠ s.id → (s.peer o).presence = .present → exec (.purge origin) s = .next (answer s [0x0C#8, 0xFF#8])) ∧
      (o ≠ s.id → (s.peer o).presence = .absent → ∃ t, exec (.purge origin) s = .next t ∧
        t = answer { s with table := t.table, queue := t.queue, feed := t.feed }
          [0x00#8, byteOf (s.table.ofOrigin o).length] ∧
        t.table.entries = s.table.entries.filter (fun e => decide (e.origin ≠ o)) ∧
        t.table.generation = s.table.generation + BitVec.ofNat 16 (s.table.ofOrigin o).length ∧
        t.table.drops = s.table.drops ∧
        (s.queueSound = true → s.tableSound = true →
          let keys := (s.table.ofOrigin o).map (fun e => (e.origin, e.channel))
          t.queue = queueAfterStale keys s.queue ∧
          t.feed = s.feed.recordAll s.image.watermark s.line.round
            ((s.table.ofOrigin o).map (fun e => .entryRemoved e.origin e.channel e.level e.seq .purge e.ackedBy) ++
              staleRecords keys s.queue))))

/-- FEED_RELEASE refuses a count of 0 or above 32. Otherwise it removes the oldest records, as many as the count or all, forms a
GAP record at the newest end where it removed one and losses were pending, and judges IRQ afresh. -/
def Obligations.FeedReleaseMakesRoom : Prop :=
  ∀ (count : Byte) (s : State), s.transactionOpen → s.feed.sound = true →
    ((count.toNat = 0 ∨ 32 < count.toNat) →
      exec (.feedRelease count) s = .next (s.answered .feedRelease [count] [0x04#8, 0xFF#8])) ∧
    (1 ≤ count.toNat → count.toNat ≤ 32 → ∃ t, exec (.feedRelease count) s = .next t ∧
      t = ({ s with feed := t.feed } : State).answered .feedRelease [count]
        [0x00#8, byteOf (min count.toNat s.feed.records.length)] ∧
      t.feed.records = s.feed.records.drop count.toNat ++
        (if s.feed.gap ≠ 0 then
          [{ number := s.feed.next, round := s.line.round, urgent := s.feed.gapUrgent, body := .gap s.feed.gap }]
        else []) ∧
      t.feed.next = (if s.feed.gap ≠ 0 then s.feed.next + 1 else s.feed.next) ∧ t.feed.gap = 0 ∧
      t.feed.gapUrgent = false ∧ t.feed.urgentCount = (t.feed.records.filter (·.urgent)).length ∧
      t.feed.irq = (decide (s.image.watermark ≤ t.feed.records.length) || decide (0 < t.feed.urgentCount)))

/-- FEED_PEEK answers the oldest record or FEED_EMPTY; ROSTER, QUEUE and CHANNEL answer one record, entry or monitor, NONE for a
free slot, BAD_VALUE out of range. None of them changes anything. That bit 7 (state_only) of the flags byte reads 0 for an ACK
or REPLAY entry in a QUEUE answer is THE MODEL'S CHOICE (log entry 24). -/
def Obligations.DiagnosticReadsAnswer : Prop :=
  ∀ s : State, s.transactionOpen →
    (s.feed.records = [] → exec .feedPeek s = .next (s.answered .feedPeek [] (0x0D#8 :: List.replicate 14 0xFF#8))) ∧
    (∀ r rs, s.feed.records = r :: rs → exec .feedPeek s = .next (s.answered .feedPeek [] (0x00#8 :: r.bytes))) ∧
    (∀ id : Byte, 31 < id.toNat → exec (.roster id) s = .next (s.answered .roster [id] (0x04#8 :: List.replicate 4 0xFF#8))) ∧
    (∀ (id : Byte) (k : StationId), k.val = id.toNat →
      exec (.roster id) s = .next (s.answered .roster [id]
        ([0x00#8, (s.peer k).presence.code, byteOf (s.peer k).missed] ++ bytes16 (s.peer k).lastSeen))) ∧
    (∀ slot : Byte, 14 < slot.toNat →
      exec (.queue slot) s = .next (s.answered .queue [slot] (0x04#8 :: List.replicate 16 0xFF#8))) ∧
    (∀ (slot : Byte) (k : Fin 15), k.val = slot.toNat →
      (slotEntry k s.queue = none →
        exec (.queue slot) s = .next (s.answered .queue [slot] (0x0E#8 :: List.replicate 16 0xFF#8))) ∧
      (∀ e, slotEntry k s.queue = some e →
        exec (.queue slot) s = .next (s.answered .queue [slot] (0x00#8 :: s.queueBytes e)))) ∧
    (∀ channel : Byte, 7 < channel.toNat →
      exec (.channel channel) s = .next (s.answered .channel [channel] (0x04#8 :: List.replicate 15 0xFF#8))) ∧
    (∀ (channel : Byte) (c : Channel), c.val = channel.toNat →
      exec (.channel channel) s = .next (s.answered .channel [channel]
        (0x00#8 :: (s.monitor c).bytes (s.image.channel c).enable)))

/-! ### The sample port and the channel monitors -/

/-- CFS opens and closes a frame. A frame that does not close at 16 bits counts one framing error; a close without an open frame,
and a word in SETUP or for a disabled channel, change nothing else.
Model's choices in it: log entries 3, 4. -/
def Obligations.FramesAreJudgedByTheirBitCount : Prop :=
  ∀ s : State, s.rst = false →
    let closed : State := { s with cfsPin := false, assembler := { framing := false, taken := 0, count := 0, waiting := false } }
    (s.assembler.waiting = false → s.assembler.framing = false →
      exec .cfsAsserted s = .next
        { s with cfsPin := true, assembler := { framing := true, taken := 0, count := 0, waiting := false } }) ∧
    (s.assembler.waiting = true ∨ s.assembler.framing = true → exec .cfsAsserted s = .next { s with cfsPin := true }) ∧
    (∀ bits, s.assembler.framing = false → exec (.wordClose bits) s = .next closed) ∧
    (∀ bits, s.assembler.framing = true → s.assembler.count + bits.length ≠ 16 →
      exec (.wordClose bits) s = .next
        { closed with framingErrors := if s.framingErrors = 0xFFFF#16 then 0xFFFF#16 else s.framingErrors + 1 }) ∧
    (∀ c fault v, s.sampleFrameOpen → (s.station = .setup ∨ (s.image.channel c).enable = false) →
      exec (.wordClose (sampleWord c fault v)) s = .next closed)

/-- The raw level is the first row of R21 that holds, the target level the first alternative of the row of R22, over numbers of
any size. With hysteresis 0 the target is the raw level but for two values, the alarm thresholds themselves: THE MODEL'S
CHOICE to follow the table of R22 there (log entry 22). -/
def Obligations.LevelsFollowTheThresholds : Prop :=
  ∀ (k : ChannelConfig) (v : Nat),
    let h : Int := k.hysteresis
    let raw := rawLevel k v
    (raw = if k.ha ≤ v then .highAlarm else if k.hw ≤ v then .highWarn else if v ≤ k.la then .lowAlarm
      else if v ≤ k.lw then .lowWarn else .normal) ∧
    (targetLevel k .highAlarm v =
      if (k.ha : Int) - h < v then .highAlarm else if (k.hw : Int) - h < v then .highWarn else raw) ∧
    (targetLevel k .highWarn v = if k.ha ≤ v then .highAlarm else if (k.hw : Int) - h < v then .highWarn else raw) ∧
    (targetLevel k .lowAlarm v =
      if (v : Int) < k.la + h then .lowAlarm else if (v : Int) < k.lw + h then .lowWarn else raw) ∧
    (targetLevel k .lowWarn v = if v ≤ k.la then .lowAlarm else if (v : Int) < k.lw + h then .lowWarn else raw) ∧
    targetLevel k .normal v = raw ∧ targetLevel k .fault v = raw ∧
    (k.la ≤ k.lw → k.lw < k.hw → k.hw ≤ k.ha → k.hysteresis = 0 → ∀ l,
      targetLevel k l v = raw ∨ (l = .highAlarm ∧ v = k.ha) ∨ (l = .lowAlarm ∧ v = k.la))

/-- A value word below persistence moves the last value, the timer, the candidate and the count, and nothing else. A fault word or
an expiry in FAULT moves the timer and the cause, and nothing else. A stopped timer does not expire.
Model's choices in it: log entry 3; that an expiry told with time left on the timer is taken, 25. -/
def Obligations.SamplesWithoutAdoptionStayInTheMonitor : Prop :=
  ∀ (s : State) (c : Channel), s.rst = false → s.station ≠ .setup →
    let m := s.monitor c
    let full : Option Nat := if s.image.staleLimit = 0 then none else some (s.image.staleLimit * 10000)
    let n := (s.image.channel c).persistence
    let closed : State := { s with cfsPin := false, assembler := { framing := false, taken := 0, count := 0, waiting := false } }
    (∀ v : Value, s.sampleFrameOpen → (s.image.channel c).enable = true →
      let target := targetLevel (s.image.channel c) m.level v.toNat
      let result (candidate : Option Level) (count : Nat) : Host.Outcome State Fault Refusal :=
        .next (closed.setMonitor c { m with lastValue := v, staleTimer := full, candidate := candidate, count := count })
      (target = m.level → exec (.wordClose (sampleWord c false v)) s = result none 0) ∧
      (target ≠ m.level → m.candidate = some target → m.count + 1 ≠ n →
        exec (.wordClose (sampleWord c false v)) s = result (some target) (m.count + 1)) ∧
      (target ≠ m.level → m.candidate ≠ some target → n ≠ 1 →
        exec (.wordClose (sampleWord c false v)) s = result (some target) 1)) ∧
    (∀ v : Value, s.sampleFrameOpen → (s.image.channel c).enable = true → m.level = .fault →
      exec (.wordClose (sampleWord c true v)) s = .next
        (closed.setMonitor c { m with staleTimer := full, faultCause := .converter })) ∧
    (m.staleTimer ≠ none → m.level = .fault →
      exec (.staleTimerExpiry c) s = .next (s.setMonitor c { m with staleTimer := none, faultCause := .stale })) ∧
    (m.staleTimer = none → exec (.staleTimerExpiry c) s = .next s)

/-- An adoption, whatever brings it, counts seq once, refreshes the value, and sets level, active and the acknowledgement by the
kind of change; the candidate and the count start over. The other channels stay.
Model's choice in it: an expiry told with time left on the timer is taken, log entry 25. -/
def Obligations.AdoptionUpdatesTheRecord : Prop :=
  ∀ (s : State) (command : Instr) (c : Channel) (y : Level) (cause : FaultCause) (last : Value) (timer : Option Nat),
    s.adoptionAt command c y cause last timer → ∃ t, exec command s = .next t ∧
      t = { s with
        cfsPin := t.cfsPin, assembler := t.assembler, monitors := t.monitors, table := t.table, queue := t.queue
        ann := t.ann, feed := t.feed } ∧
      (∀ d, d ≠ c → t.monitor d = s.monitor d) ∧
      t.monitor c =
        { level := y, candidate := none, count := 0, lastValue := last, staleTimer := timer, faultCause := cause
          record :=
            { seq := (s.monitor c).record.seq + 1
              level := if y = .normal then (s.monitor c).level else y
              active := decide (y ≠ .normal)
              ackedBy :=
                if (s.monitor c).level = .normal ∨ (y ≠ .normal ∧ (s.monitor c).level.severity < y.severity) then none
                else (s.monitor c).record.ackedBy
              shelved := (s.monitor c).record.shelved
              value := last } }

/-- An adoption creates, changes or removes the own-origin entry, counts the generation once, keeps every other entry, computes
the own contribution afresh, and stages the channel's notice as a change. It writes one record for the entry, then
ACK_SUPERSEDED where a change of an entry retires an ACK entry of the key; the other queue entries stay.
Model's choices in it: log entry 9; that an expiry told with time left on the timer is taken, 25. -/
def Obligations.AdoptionReachesTableQueueAndFeed : Prop :=
  ∀ (s : State) (command : Instr) (c : Channel) (y : Level) (cause : FaultCause) (last : Value) (timer : Option Nat),
    s.adoptionAt command c y cause last timer → s.queueSound = true → s.monitorsSound = true →
    ∃ t, exec command s = .next t ∧
      let r := (t.monitor c).record
      let round := s.line.round
      let changed (e : Entry) : Entry :=
        { e with
          level := r.level, seq := r.seq, active := r.active, ackedBy := r.ackedBy, shelved := r.shelved, value := r.value
          changedRound := round }
      let recorded (f : Feed) : Feed := f.recordAll s.image.watermark round (staleRecords [(s.id, c)] s.queue)
      let others (q : List QueueEntry) : List QueueEntry := q.filter (fun e => decide (e.slot ≠ channelSlot c))
      (∀ o d, ¬(o = s.id ∧ d = c) → t.table.find o d = s.table.find o d) ∧
      t.table.generation = s.table.generation + 1 ∧ t.table.drops = s.table.drops ∧
      (s.table.find s.id c = none →
        t.table.find s.id c = some
          { origin := s.id, channel := c, level := y, seq := r.seq, active := true, ackedBy := none, shelved := r.shelved
            orphaned := false, value := last, firstRound := round, changedRound := round } ∧
        t.feed = s.feed.arrive s.image.watermark round (decide (y.severity = 3))
          (.entryAdded s.id c y r.seq true none) ∧
        others t.queue = others s.queue) ∧
      (∀ e, s.table.find s.id c = some e → (y ≠ .normal ∨ r.ackedBy = none) →
        t.table.find s.id c = some (changed e) ∧
        t.feed = recorded (s.feed.arrive s.image.watermark round (decide (r.level.severity = 3) && r.ackedBy.isNone)
          (.entryChanged s.id c r.level r.seq r.active r.ackedBy)) ∧
        others t.queue = others (queueAfterStale [(s.id, c)] s.queue)) ∧
      (∀ e, s.table.find s.id c = some e → y = .normal → r.ackedBy ≠ none →
        t.table.find s.id c = none ∧
        (∃ l q, (l = e.level ∨ l = r.level) ∧ (q = e.seq ∨ q = r.seq) ∧
          t.feed = recorded (s.feed.arrive s.image.watermark round false (.entryRemoved s.id c l q .cleared r.ackedBy))) ∧
        others t.queue = others (queueAfterStale [(s.id, c)] s.queue)) ∧
      t.ann.own = ownContribution s.id t.table.entries ∧ t.ann.link = s.ann.link ∧
      slotEntry (channelSlot c) t.queue = some
        (match slotEntry (channelSlot c) s.queue with
        | none =>
          { slot := channelSlot c, notice := .channel c false, state := .waiting, restage := false, withdraw := false
            attempts := 0, receipts := 0 }
        | some q =>
          if q.onLine then { q with restage := true, notice := .channel c false }
          else { q with state := .waiting, attempts := 0, receipts := 0, notice := .channel c false })

/-! ### Rounds -/

/-- A mark recognised on the idle line: the timer, the counter, the census map, the position; RESTING entries wake; the watch for
a missing mark restarts in LISTEN. Nothing else changes, and elsewhere no mark is recognised.
Model's choices in it: log entries 3, 8, 25. -/
def Obligations.MarkStartsARound : Prop :=
  ∀ s : State, s.rst = false →
    ((s.station = .listen ∨ s.station = .joining ∨ s.station = .active ∨ s.station = .quiet) →
      (s.line.position = .seek ∨ s.line.position = .idle) →
      exec .markRecognised s = .next
        { s with
          line := { s.line with
            roundTimer := some (s.image.period - 8), deferredMark := false, ownMark := false, round := s.line.round + 1
            censusMap := 0, position := .round .mark 8, sweep := none, window := none, windowsUsed := 0
            drivenRun := max 8 s.line.drivenRun, releasedRun := 0, idleRun := 0 }
          queue := s.queue.map (fun e => if e.state = .resting then { e with state := .waiting } else e)
          silenceTimer := if s.station = .listen then some (3 * s.image.period) else s.silenceTimer }) ∧
    ((s.station = .setup ∨ s.station = .stuck ∨ s.line.position = .off ∨ ∃ f b, s.line.position = .round f b) →
      exec .markRecognised s = .next s)

/-- The round timer runs out: JOINING and ACTIVE drive ten bit times on the idle line, and defer the mark inside a round; LISTEN
and QUIET only stop the timer. A mark driven and not recognised restarts the timer from its first bit time.
Model's choices in it: log entries 3, 13, 25. -/
def Obligations.RoundTimerDrivesOrDefersTheMark : Prop :=
  ∀ s : State, s.rst = false →
    (s.line.roundTimer ≠ none →
      ((s.station = .joining ∨ s.station = .active) → (s.line.position = .seek ∨ s.line.position = .idle) →
        exec .roundTimerExpiry s = .next
          { s with line := { s.line with roundTimer := none, tx := List.replicate 10 true, ownMark := true } }) ∧
      ((s.station = .joining ∨ s.station = .active) → (∃ f b, s.line.position = .round f b) →
        exec .roundTimerExpiry s = .next { s with line := { s.line with roundTimer := none, deferredMark := true } }) ∧
      ((s.station = .listen ∨ s.station = .quiet) →
        exec .roundTimerExpiry s = .next { s with line := { s.line with roundTimer := none } })) ∧
    (s.line.roundTimer = none → exec .roundTimerExpiry s = .next s) ∧
    (s.line.ownMark = true → (s.station = .joining ∨ s.station = .active) →
      (s.line.position = .seek ∨ s.line.position = .idle) →
      exec .markUnrecognised s = .next
        { s with line := { s.line with roundTimer := some (s.image.period - 10), ownMark := false, tx := [] } }) ∧
    (s.line.ownMark = false → exec .markUnrecognised s = .next s)

/-- The silence timer runs out in LISTEN: JOINING, ten driven bit times, the round timer at P; the REPLAY entry staged, the
CHANNEL entries started over, the own conditions without an entry staged as STATE in channel order, the ACK entries kept.
Model's choices in it: log entries 13, 25. -/
def Obligations.LoneStartEntersJoining : Prop :=
  ∀ s : State, s.rst = false → s.station = .listen → s.silenceTimer ≠ none →
    (s.line.position = .seek ∨ s.line.position = .idle) → s.queueSound = true →
    ∃ t, exec .silenceTimerExpiry s = .next t ∧
      t = { s with
        station := .joining, silenceTimer := none, queue := t.queue
        line := { s.line with tx := List.replicate 10 true, ownMark := true, roundTimer := some s.image.period } } ∧
      t.queue.map (·.slot) = s.queue.map (·.slot) ++ (if slotEntry replaySlot s.queue = none then [replaySlot] else []) ++
        ((channelOrder.filter (fun c =>
          (s.table.find s.id c).isSome && (slotEntry (channelSlot c) s.queue).isNone)).map channelSlot) ∧
      slotEntry replaySlot t.queue = some
        { slot := replaySlot, notice := .replay, state := .waiting, restage := false, withdraw := false, attempts := 0
          receipts := 0 } ∧
      (∀ k ∈ ackSlots, slotEntry k t.queue = slotEntry k s.queue) ∧
      (∀ c : Channel,
        (∀ e, slotEntry (channelSlot c) s.queue = some e →
          slotEntry (channelSlot c) t.queue = some
            { e with attempts := 0, receipts := 0, state := if e.state = .resting then .waiting else e.state }) ∧
        (slotEntry (channelSlot c) s.queue = none → s.table.find s.id c ≠ none →
          slotEntry (channelSlot c) t.queue = some
            { slot := channelSlot c, notice := .channel c true, state := .waiting, restage := false, withdraw := false
              attempts := 0, receipts := 0 }) ∧
        (slotEntry (channelSlot c) s.queue = none → s.table.find s.id c = none →
          slotEntry (channelSlot c) t.queue = none))

/-- The trailing edge starts the gap; a station that takes part then drives its own census slot, and beside it what is left of its
own ten mark bits. An accepted frame is answered in the own receipt slot. The last bit of the end gap leads to IDLE, and a
deferred mark is driven from there; inside the frame of a window no round ends.
Model's choices in it: log entries 3, 8, 13, 25, 26. -/
def Obligations.EdgesSlotsAndRoundEnd : Prop :=
  ∀ s : State, s.rst = false →
    (s.station = .listen ∨ s.station = .joining ∨ s.station = .active ∨ s.station = .quiet) →
    let inGroup : Prop := s.station = .joining ∨ s.station = .active
    (∀ b, s.line.position = .round .mark b → ∃ t, exec .markTrailingEdge s = .next t ∧
      t = { s with
        line := { s.line with
          position := .round .gapMark 1, drivenRun := 0, releasedRun := max 1 s.line.releasedRun, tx := t.line.tx } } ∧
      ∀ n, t.line.tx.getD n false = (s.line.tx.getD n false || (decide inGroup && decide (n = 1 + s.id.val)))) ∧
    (∀ k b w, s.line.position = .round (.window k) b → s.line.window = some w →
      (inGroup → w.judgement = some .accepted → 55 ≤ b → b ≤ 57 + s.id.val →
        exec .receiptSlot s = .next
          { s with line := { s.line with position := .round (.window s.line.windowsUsed) (57 + s.id.val), tx := [true] } }) ∧
      ((¬inGroup ∨ w.judgement ≠ some .accepted) → exec .receiptSlot s = .next s)) ∧
    (∀ b, (s.line.position = .round .endGap b ∨
        ∃ k, s.line.position = .round (.window k) b ∧ 55 ≤ b ∧ s.image.windows ≤ s.line.windowsUsed) →
      lineEntry s.queue = none →
      exec .roundEnd s = .next
        { s with
          line := { s.line with
            position := .idle, window := none, sweep := none, deferredMark := false
            ownMark := s.line.ownMark || (s.line.deferredMark && decide inGroup)
            tx := if s.line.deferredMark = true ∧ inGroup then List.replicate 10 true else [] } }) ∧
    (∀ k b, s.line.position = .round (.window k) b → b < 55 → exec .roundEnd s = .next s)

/-- A complete census: the map; each record of an id with a slot, by what its slot read; the orphaned fields of the peers that
came or went; receipts without the peers that came; the records in id order. The own record hands nothing on. In LISTEN with
the own slot driven, an id clash, the roster, the table and the receipts change all the same; where the records stand then is
said by CensusEndsListen.
Model's choices in it: log entries 4, 21, 26. -/
def Obligations.CensusUpdatesTheRoster : Prop :=
  ∀ (s : State) (slots : IdSet) (first : TakenFirst) (left : Nat), s.rst = false →
    (s.station = .listen ∨ s.station = .joining ∨ s.station = .active ∨ s.station = .quiet) →
    ((∃ b, s.line.position = .round .census b ∧ left = s.image.groupSize - b) ∨
      ∃ b, s.line.position = .round .gapMark b ∧ left = 2 - b + s.image.groupSize) →
    let clash : Prop := s.station = .listen ∧ slots.getLsbD s.id.val = true ∧ s.id.val < s.image.groupSize
    ∃ t, exec (.censusEnd slots first) s = .next t ∧
      t = { s with
        station := t.station, cause := t.cause, listenCount := t.listenCount, silenceTimer := t.silenceTimer, line := t.line
        table := t.table, queue := t.queue, roster := t.roster, ann := t.ann, feed := t.feed } ∧
      (¬clash → t.cause = s.cause ∧ t.ann = s.ann) ∧
      t.line = { s.line with
        position := .round .gapCensus 0, tx := s.line.tx.drop left, censusMap := t.line.censusMap } ∧
      (∀ k : StationId, hasId t.line.censusMap k = (decide (k.val < s.image.groupSize) && hasId slots k)) ∧
      (∀ k : StationId, t.peer k =
        if s.image.groupSize ≤ k.val then s.peer k
        else if hasId slots k then { presence := .present, missed := 0, lastSeen := s.line.round }
        else
          { presence := if s.leaves slots k then .absent else (s.peer k).presence
            missed := if (s.peer k).missed < s.image.absenceLimit then (s.peer k).missed + 1 else s.image.absenceLimit
            lastSeen := (s.peer k).lastSeen }) ∧
      t.table.entries = s.table.entries.map (fun e =>
        { e with
          orphaned :=
            if e.origin = s.id then e.orphaned
            else if s.joins slots e.origin then false
            else if s.leaves slots e.origin then true
            else e.orphaned }) ∧
      t.table.drops = s.table.drops ∧
      t.table.generation = s.table.generation + BitVec.ofNat 16
        (s.table.entries.filter (fun e => decide (e.origin ≠ s.id) &&
          ((s.joins slots e.origin && e.orphaned) || s.leaves slots e.origin))).length ∧
      (¬clash → s.feed.records.length + (s.censusRecords slots).length ≤ 32 →
        t.feed.records.map (·.body) = s.feed.records.map (·.body) ++ s.censusRecords slots ∧
          t.feed.urgentCount = s.feed.urgentCount) ∧
      (t.station ≠ .joining ∨ s.station = .joining → ∃ joined : IdSet,
        (∀ k, hasId joined k = (s.joins slots k && decide (k ≠ s.id))) ∧
          t.queue = s.queue.map (fun e => { e with receipts := e.receipts &&& ~~~joined })) ∧
      (s.station ≠ .listen →
        t.station = s.station ∧ t.silenceTimer = s.silenceTimer ∧ t.listenCount = s.listenCount)

/-- A census in LISTEN counts; the second one leads to JOINING with the REPLAY entry waiting. With the own slot driven the station
goes QUIET with cause ID_CLASH instead, and the order taken decides only where STATION_QUIET stands among the records.
Model's choices in it: log entries 4, 5, 21, 26. -/
def Obligations.CensusEndsListen : Prop :=
  ∀ (s : State) (slots : IdSet) (left : Nat), s.rst = false → s.station = .listen →
    ((∃ b, s.line.position = .round .census b ∧ left = s.image.groupSize - b) ∨
      ∃ b, s.line.position = .round .gapMark b ∧ left = 2 - b + s.image.groupSize) →
    s.queueSound = true →
    let own := decide (s.id.val < s.image.groupSize) && hasId slots s.id
    (∀ first, own = false → s.listenCount = 0 → ∃ t, exec (.censusEnd slots first) s = .next t ∧
      t.station = .listen ∧ t.listenCount = 1 ∧ t.silenceTimer = s.silenceTimer) ∧
    (∀ first, own = false → s.listenCount = 1 → ∃ t, exec (.censusEnd slots first) s = .next t ∧
      t.station = .joining ∧ t.cause = s.cause ∧ t.silenceTimer = none ∧
      t.line.tx = s.line.tx.drop left ∧
      slotEntry replaySlot t.queue = some
        { slot := replaySlot, notice := .replay, state := .waiting, restage := false, withdraw := false, attempts := 0
          receipts := 0 } ∧
      (∀ c : Channel, s.table.find s.id c ≠ none → (slotEntry (channelSlot c) t.queue).isSome = true)) ∧
    (own = true → ∃ t u, exec (.censusEnd slots .owner) s = .next t ∧ exec (.censusEnd slots .controller) s = .next u ∧
      t.station = .quiet ∧ t.cause = .idClash ∧ t.silenceTimer = none ∧ t.ann.link = false ∧ t.ann.code = s.ann.own ∧
      u = { t with feed := u.feed } ∧
      (s.feed.records.length + (s.censusRecords slots).length < 32 →
        t.feed.records.map (·.body) =
            s.feed.records.map (·.body) ++ s.censusRecords slots ++ [.stationQuiet .idClash] ∧
          u.feed.records.map (·.body) =
            s.feed.records.map (·.body) ++ [.stationQuiet .idClash] ++ s.censusRecords slots ∧
          t.feed.irq = true ∧ u.feed.irq = true))

/-- The sweep takes the own contribution at its first bit time, where a bit time has led up to it or the gap before it is still to
pass; what is left of an own mark goes on. In each of its bit times a participant asserts GTX when its code has a 1 there,
with nothing else to be sent. At its last bit time the value read goes to the annunciation unit, which shows it where this
station took part and is still in the group.
Model's choices in it: log entries 4, 13, 14, 26. -/
def Obligations.SweepShowsTheValueRead : Prop :=
  ∀ s : State, s.rst = false →
    (s.station = .listen ∨ s.station = .joining ∨ s.station = .active ∨ s.station = .quiet) →
    let inGroup : Prop := s.station = .joining ∨ s.station = .active
    (∀ b, s.line.position = .round .gapCensus b → s.line.sweep = none →
      exec .sweepStart s = .next
        { s with
          line := { s.line with
            position := .round .sweep 0
            sweep := some { tookPart := decide inGroup, code := s.ann.own, participant := decide inGroup, sent := [], read := [] }
            tx := s.line.tx.drop (1 - b) } }) ∧
    (s.line.position = .round .sweep 0 → s.line.sweep = none →
      exec .sweepStart s = .next
        { s with
          line := { s.line with
            sweep := some { tookPart := decide inGroup, code := s.ann.own, participant := decide inGroup, sent := [], read := [] } } }) ∧
    (∀ b p, s.line.position = .round .sweep b → s.line.sweep = some p → s.line.tx = [] →
      s.gtx = (decide inGroup && p.participant && p.code.getMsbD b)) ∧
    (∀ b p read, s.line.position = .round .sweep b → s.line.sweep = some p → ∃ t, exec (.sweepEnd read) s = .next t ∧
      t = { s with line := t.line, ann := t.ann } ∧
      t.line = { s.line with
        position := .round .gapSweep 0, sweep := none, sweepResult := read, tx := s.line.tx.drop (3 - b)
        sweepSent := t.line.sweepSent } ∧
      t.ann = if p.tookPart = true ∧ inGroup then { s.ann with link := true, code := read } else s.ann)

/-- When the value read in a sweep is what its participants drive, with dropout, it is the largest of their codes, and 000 without
one.
Model's choices in it: log entry 14. -/
def Obligations.SweepFindsTheLargestCode : Prop :=
  ∀ (codes : List Code) (read : Code),
    read = codes.foldl (fun r c => r ||| sweepSentCode
      { tookPart := true, code := c, participant := true, sent := [], read := [] } read) 0 →
    read.toNat = codes.foldl (fun m c => max m c.toNat) 0

/-! ### Windows -/

/-- A window starts: the eligible entry of lowest key, the oldest among equals, becomes CANDIDATE with its frame formed; without
one the station is RECEIVER. A start bit read driven is followed by the key, one read released by the end gap. At a start bit
position, with nothing else to be sent, GTX is asserted exactly at a station with an eligible entry. Inside the frame of a
window no window starts.
Model's choices in it: log entries 4, 11, 13, 26. -/
def Obligations.WindowTakesTheLowestKey : Prop :=
  (∀ (s : State) (driven : Bool) (k b : Nat), s.line.position = .round (.window k) b → b < 55 →
    exec (.windowStart driven) s = .next s) ∧
  ∀ (s : State) (driven : Bool), s.rst = false →
    (s.station = .listen ∨ s.station = .joining ∨ s.station = .active ∨ s.station = .quiet) →
    ((∃ b, s.line.position = .round .gapSweep b) ∨ ∃ k b, s.line.position = .round (.window k) b ∧ 55 ≤ b) →
    s.line.windowsUsed < s.image.windows → lineEntry s.queue = none → s.queueSound = true →
    let eligible (e : QueueEntry) : Prop :=
      e.state = .waiting ∧ (s.station = .active ∨ (s.station = .joining ∧ e.notice = .replay))
    let severity (e : QueueEntry) : Nat :=
      match e.notice with
      | .channel c _ => (s.monitor c).record.level.severity
      | .ack o c _ held => ((s.table.find o c).map (·.severity)).getD held
      | .replay => 0
    let kind (e : QueueEntry) : NoticeKind :=
      match e.notice with
      | .channel c false => if (s.monitor c).record.active then .raise else .clear
      | .channel c true =>
        if !(s.monitor c).record.active && (s.monitor c).record.ackedBy.isSome then .clear else .state
      | .ack _ _ _ _ => .ack
      | .replay => .replay
    let key (e : QueueEntry) : Nat := 256 * (3 - severity e) + 32 * (kind e).rank + s.id.val
    let payload (e : QueueEntry) : BitVec 36 :=
      match e.notice with
      | .channel c _ => announcementPayload c (s.monitor c).record
      | .ack o c q _ => ackPayload o c q
      | .replay => replayPayload s.image
    let k := s.line.windowsUsed + 1
    let engine (window : Option Window) (tx : List Bool) : LineEngine :=
      { s.line with
        windowsUsed := k, position := if driven then .round (.window k) 1 else .round .endGap 0, window := window, tx := tx }
    let role (r : Role) (f : Option Flight) : Window :=
      { role := r, flight := f, received := [], judgement := none, sentWhole := false, slots := 0 }
    ((s.line.position = .round .gapSweep 1 ∨ ∃ k, s.line.position = .round (.window k) (59 + s.image.groupSize)) →
      s.line.tx = [] → (s.gtx = true ↔ ∃ e ∈ s.queue, eligible e)) ∧
    ((∀ e ∈ s.queue, ¬eligible e) →
      exec (.windowStart driven) s = .next
        { s with line := engine (if driven then some (role .receiver none) else none) [] }) ∧
    (∀ (e : QueueEntry) (older younger : List QueueEntry), s.queue = older ++ e :: younger → eligible e →
      (∀ f ∈ older, eligible f → key e < key f) → (∀ f ∈ younger, eligible f → key e ≤ key f) →
      ∃ t, exec (.windowStart driven) s = .next t ∧
        let f : Flight :=
          { key := BitVec.ofNat 10 (key e), payload := payload e
            crc := frameCrc (BitVec.ofNat 10 (key e)) (payload e) }
        t = { s with
          line := engine (some (role .contender (some f))) (if driven then (msbBits f.key).map (!·) else []), queue := t.queue } ∧
        t.queue.map (·.slot) = s.queue.map (·.slot) ∧
        slotEntry e.slot t.queue = some
          { e with
            state := .candidate
            notice := match e.notice with
              | .ack o c q _ => .ack o c q (severity e)
              | n => n } ∧
        (∀ j, j ≠ e.slot → ∀ g, slotEntry j s.queue = some g → ∃ g', slotEntry j t.queue = some g' ∧
          g' = { g with notice := g'.notice } ∧ ((¬∃ o c q v, g.notice = .ack o c q v) → g' = g)))

/-- The key: a loss at a bit sent 1 makes the station a receiver, and the entry WAITING again without an attempt, or restaged, or
retired with ACK_SUPERSEDED where it is withdrawn; the key won makes it SENDER, the entry SENDING. The frame sent whole sets
the abandon counter to 0, and but for an ACK changes nothing else.
Model's choices in it: log entries 4, 13. -/
def Obligations.ContestAndOwnFrame : Prop :=
  ∀ (s : State) (w : Window) (f : Flight) (e : QueueEntry) (b : Nat),
    s.line.position = .round (.window s.line.windowsUsed) b → w.sentWhole = false → s.queueSound = true →
    (∀ bit, s.sends .contender w f e → e.state = .candidate → 1 ≤ bit → bit ≤ 10 → f.key.getMsbD (bit - 1) = true →
      ∃ t, exec (.contestLost bit) s = .next t ∧
        t = { s with queue := t.queue, line := t.line, feed := t.feed } ∧
        t.line = { s.line with
          position := .round (.window s.line.windowsUsed) (bit + 1), tx := []
          window := some { w with
            role := .receiver, flight := none, received := (msbBits f.key).take (bit - 1) ++ [false] } } ∧
        t.queue = (s.lostPart e).1 ∧ t.feed = s.feed.recordAll s.image.watermark s.line.round (s.lostPart e).2) ∧
    (s.sends .contender w f e → e.state = .candidate → ∃ t, exec .keyWon s = .next t ∧
      t = { s with queue := t.queue, line := t.line } ∧
      t.queue = updateSlot e.slot (fun _ => { e with state := .sending }) s.queue ∧
      t.line = { s.line with
        position := .round (.window s.line.windowsUsed) 11
        tx := (msbBits f.payload ++ msbBits f.crc).map (!·)
        window := some { w with role := .sender, received := msbBits f.key } }) ∧
    (s.sends .sender w f e → f.key.toNat / 32 % 8 ≠ 2 → ∃ t, exec .frameSentWhole s = .next t ∧
      t = { s with line := t.line } ∧
      t.line = { s.line with
        position := .round (.window s.line.windowsUsed) 55, tx := [], abandons := 0
        window := some { w with received := msbBits (f.key ++ f.payload ++ f.crc), sentWhole := true } })

/-- An abandonment on account of the line, in the key, the payload or the CRC, counts one in the abandon counter and is one attempt
without receipts by the steps of R85: withdrawn, restaged, complete, rested, or retired with partial delivery. Below 3 the
station stays, but for a REPLAY entry that retires and leads to ACTIVE. At 3 the station goes QUIET with cause TX_FAULT, the
attempt counted once in either order; a REPLAY entry retires where the queue is first, and rests where the controller is.
Model's choices in it: log entries 4, 5, 13. -/
def Obligations.AbandonmentsCountOnceAndTheThirdEntersQuiet : Prop :=
  ∀ (s : State) (w : Window) (f : Flight) (e : QueueEntry) (command : TakenFirst → Instr) (b : Nat),
    (∃ k, s.line.position = .round (.window k) b) → w.sentWhole = false → s.queueSound = true →
    (((∃ bit, command = (fun first => .lineFaultAbandon bit first) ∧ 1 ≤ bit ∧ bit ≤ 10 ∧
          f.key.getMsbD (bit - 1) = false) ∧ s.sends .contender w f e ∧ e.state = .candidate) ∨
      ((∃ bit, command = (fun first => .readBackMismatch bit first) ∧ 11 ≤ bit ∧ bit ≤ 54) ∧ s.sends .sender w f e ∧
        e.state = .sending)) →
    ∀ first,
      let attempt := s.attemptMade 0 (f.payload.extractLsb' 25 8) e
      let taken := if 2 ≤ s.line.abandons.toNat ∧ first = .controller ∧ e.notice = .replay then s.replayRests e else attempt
      let feed := s.feed.recordAll s.image.watermark s.line.round taken.2
      ∃ t, exec (command first) s = .next t ∧
        t.line.abandons = (if s.line.abandons = 0xFF#8 then 0xFF#8 else s.line.abandons + 1) ∧ t.line.tx = [] ∧
        (∃ received, t.line.window = some { w with role := .receiver, flight := none, received := received }) ∧
        t.table = s.table ∧ t.monitors = s.monitors ∧ t.roster = s.roster ∧ t.image = s.image ∧ t.queue = taken.1 ∧
        (s.line.abandons.toNat < 2 → t.feed = feed ∧ t.ann = s.ann ∧ t.cause = s.cause ∧
          t.station = if s.replayRetires 0 e then .active else s.station) ∧
        (2 ≤ s.line.abandons.toNat → t.station = .quiet ∧ t.cause = .txFault ∧ t.ann.link = false ∧
          t.ann.code = s.ann.own ∧ t.line.deferredMark = false ∧
          t.feed = feed.arrive s.image.watermark s.line.round true (.stationQuiet .txFault))

/-- A line fault in the start bit abandons the frame like one in the key, whatever flags and receipts the entry has, and leaves the
station without a window; the third abandonment takes it QUIET with cause TX_FAULT here too.
Model's choices in it: log entries 4, 5, 13. -/
def Obligations.LineFaultInTheStartBitEndsTheWindow : Prop :=
  ∀ (s : State) (w : Window) (f : Flight) (e : QueueEntry) (first : TakenFirst), s.sends .contender w f e →
    w.sentWhole = false → s.line.position = .round .endGap 0 → e.state = .candidate → s.queueSound = true →
    let attempt := s.attemptMade 0 (f.payload.extractLsb' 25 8) e
    let taken := if 2 ≤ s.line.abandons.toNat ∧ first = .controller ∧ e.notice = .replay then s.replayRests e else attempt
    let feed := s.feed.recordAll s.image.watermark s.line.round taken.2
    let abandons := if s.line.abandons = 0xFF#8 then 0xFF#8 else s.line.abandons + 1
    (s.line.abandons.toNat < 2 →
      exec (.lineFaultAbandon 0 first) s = .next
        { s with
          queue := taken.1, feed := feed, station := if s.replayRetires 0 e then .active else s.station
          line := { s.line with abandons := abandons, window := none, tx := [] } }) ∧
    (2 ≤ s.line.abandons.toNat →
      exec (.lineFaultAbandon 0 first) s = .next
        { s with
          queue := taken.1, station := .quiet, cause := .txFault, silenceTimer := none
          feed := feed.arrive s.image.watermark s.line.round true (.stationQuiet .txFault)
          ann := { s.ann with link := false, code := s.ann.own }
          line := { s.line with
            abandons := abandons, window := none, tx := [], deferredMark := false, ownMark := false
            sweep := s.line.sweep.map (fun p => { p with participant := false }) } })

/-- The end of the receipt field: the attempt and the receipts count, the own id left out, and the steps of R85 follow. A withdrawn
entry retires with ACK_SUPERSEDED and a restaged one starts over, complete or not; a complete entry retires; an incomplete one
rests below the retry limit and retires with DELIVERY_PARTIAL at it; a REPLAY that retires leads to ACTIVE with JOIN_COMPLETE.
At a receiver the field changes no entry.
Model's choices in it: log entries 4, 13, 26. -/
def Obligations.ReceiptsSettleTheEntry : Prop :=
  ∀ (s : State) (w : Window) (slots : IdSet) (b : Nat), s.line.position = .round (.window s.line.windowsUsed) b →
    55 ≤ b → b ≤ 57 + s.image.groupSize → s.queueSound = true →
    let line : LineEngine :=
      { s.line with
        position := .round (.window s.line.windowsUsed) (57 + s.image.groupSize), tx := []
        window := some { w with role := .receiver, flight := none } }
    (∀ f e, s.sends .sender w f e → w.sentWhole = true → e.state = .sending →
      let map := slots &&& BitVec.ofNat 32 (2 ^ s.image.groupSize - 1) &&& ~~~(idBit s.id)
      let taken := s.attemptMade map (f.payload.extractLsb' 25 8) e
      exec (.receiptFieldEnd slots) s = .next
        { s with
          station := if s.replayRetires map e then .active else s.station, queue := taken.1, line := line
          feed := s.feed.recordAll s.image.watermark s.line.round taken.2 }) ∧
    (s.rst = false → (s.station = .listen ∨ s.station = .joining ∨ s.station = .active ∨ s.station = .quiet) →
      s.line.window = some w → w.role = .receiver → lineEntry s.queue = none →
      exec (.receiptFieldEnd slots) s = .next { s with line := line })

/-! ### Frames -/

/-- Every frame a station can form is accepted by every receiver that reads it whole, with the sender's id and with the very
content it was formed from: announcements, acknowledgements, REPLAYs. -/
def Obligations.FramesSentAreReadAsFormed : Prop :=
  ∀ (severity : Nat) (k : StationId),
    (∀ (kind : NoticeKind) (c : Channel) (r : Record), r.level ≠ .normal →
      ((kind = .raise ∧ r.active = true) ∨ (kind = .clear ∧ r.active = false) ∨
        (kind = .state ∧ (r.active = true ∨ r.ackedBy = none))) →
      judgeFrame (flightOf (BitVec.ofNat 10 (contestKey severity kind k)) (announcementPayload c r)).values =
        .accepted k (.announcement kind c r)) ∧
    (∀ (o : StationId) (c : Channel) (q : Seq),
      judgeFrame (flightOf (BitVec.ofNat 10 (contestKey severity .ack k)) (ackPayload o c q)).values =
        .accepted k (.ack o c q)) ∧
    (∀ i : Image,
      judgeFrame (flightOf (BitVec.ofNat 10 (contestKey severity .replay k)) (replayPayload i)).values =
        .accepted k (.replay (BitVec.ofNat 6 i.groupSize) (BitVec.ofNat 3 i.windows) (BitVec.ofNat 14 i.period)))

/-- The CRC: the register of R127 step by step over the 46 values, sent after them; and it is 00h after the 8 CRC values exactly
when they agree with it. -/
def Obligations.CrcIsTheRegisterOfTheFrame : Prop :=
  crcOf [] = 0xFF#8 ∧
  (∀ (bits : List Bool) (bit : Bool), crcOf (bits ++ [bit]) =
    if ((crcOf bits).getLsbD 7 ^^ bit) = true then (crcOf bits <<< 1) ^^^ 0xD5#8 else crcOf bits <<< 1) ∧
  (∀ (key : BitVec 10) (payload : BitVec 36) (crc : BitVec 8),
    frameCrc key payload = crcOf (msbBits key ++ msbBits payload) ∧
    (flightOf key payload).values = key ++ payload ++ frameCrc key payload ∧
    (judgeFrame (key ++ payload ++ crc) = .crcError ↔ crc ≠ frameCrc key payload) ∧
    (crcOf (msbBits key ++ msbBits payload ++ msbBits crc) = 0 ↔ crc = frameCrc key payload))

/-- A frame rejected for its CRC counts one CRC error, one rejected for its fields one malformed frame, and neither does more. An
accepted frame with the own id takes the station QUIET with cause ID_CLASH, and does nothing more in QUIET.
Model's choices in it: log entries 13, 18. -/
def Obligations.RejectedFramesAreCountedAndClashesEnterQuiet : Prop :=
  ∀ (s : State) (w : Window) (read : BitVec 54), s.listensTo w →
    let key := read.extractLsb' 44 10
    let payload := read.extractLsb' 8 36
    let rank := key.toNat / 32 % 8
    let level := (payload.extractLsb' 22 3).toNat
    let active := payload.getLsbD 21
    let acked := payload.getLsbD 20
    let crcGood := frameCrc key payload = read.extractLsb' 0 8
    let fieldsGood := rank = 2 ∨ rank = 4 ∨
      (1 ≤ level ∧ level ≤ 5 ∧
        ((rank = 0 ∧ active = true) ∨ (rank = 1 ∧ active = false) ∨ (rank = 3 ∧ (active = true ∨ acked = false))))
    let t := s.afterFrame w read .rejected
    let u := s.afterFrame w read .accepted
    (¬crcGood → exec (.frameJudged read) s = .next
      { t with line := { t.line with crcErrors := if s.line.crcErrors = 0xFFFF#16 then 0xFFFF#16 else s.line.crcErrors + 1 } }) ∧
    (crcGood → ¬fieldsGood → exec (.frameJudged read) s = .next
      { t with line := { t.line with malformed := if s.line.malformed = 0xFFFF#16 then 0xFFFF#16 else s.line.malformed + 1 } }) ∧
    (crcGood → fieldsGood → key.toNat % 32 = s.id.val → s.station = .quiet → exec (.frameJudged read) s = .next u) ∧
    (crcGood → fieldsGood → key.toNat % 32 = s.id.val → s.station ≠ .quiet → s.flightSound = true →
      exec (.frameJudged read) s = .next
        { u with
          station := .quiet, cause := .idClash, silenceTimer := none
          ann := { s.ann with link := false, code := s.ann.own }
          feed := s.feed.arrive s.image.watermark s.line.round true (.stationQuiet .idClash)
          line := if s.station = .listen then u.line
            else
              { u.line with
                tx := [], deferredMark := false, ownMark := false
                sweep := u.line.sweep.map (fun p => { p with participant := false }) } })

/-- An accepted announcement of another station: creation, overwrite, removal or nothing, by the key held and the newer rule; the
other entries stay. A change of the entry makes an ACK entry of its key stale, with ACK_SUPERSEDED after the table's record.
Model's choices in it: log entries 9, 18. -/
def Obligations.AnnouncementsAreMirrored : Prop :=
  ∀ (s : State) (w : Window) (read : BitVec 54) (k : StationId) (kind : NoticeKind) (c : Channel) (r : Record),
    s.listensTo w → judgeFrame read = .accepted k (.announcement kind c r) → k ≠ s.id →
    ∃ t, exec (.frameJudged read) s = .next t ∧
      let u := s.afterFrame w read .accepted
      let newer (e : Entry) : Prop := 1 ≤ (r.seq - e.seq).toNat ∧ (r.seq - e.seq).toNat ≤ 127
      let round := s.line.round
      let isOver : Prop := r.active = false ∧ r.ackedBy ≠ none
      let recorded (f : Feed) : Feed := f.recordAll s.image.watermark round (staleRecords [(k, c)] s.queue)
      let same : Prop := ∀ o d, ¬(o = k ∧ d = c) → t.table.find o d = s.table.find o d
      (s.table.find k c = none → isOver → t = u) ∧
      (s.table.find k c = none → ¬isOver → (s.table.entries.filter (fun e => decide (e.origin ≠ s.id))).length < 88 →
        t = { u with table := t.table, feed := t.feed } ∧ same ∧
        t.table.find k c = some
          { origin := k, channel := c, level := r.level, seq := r.seq, active := r.active, ackedBy := r.ackedBy
            shelved := r.shelved, orphaned := decide ((s.peer k).presence = .absent), value := r.value
            firstRound := round, changedRound := round } ∧
        t.table.generation = s.table.generation + 1 ∧
        t.feed = s.feed.arrive s.image.watermark round (decide (r.level.severity = 3) && r.ackedBy.isNone)
          (.entryAdded k c r.level r.seq r.active r.ackedBy)) ∧
      (∀ e, s.table.find k c = some e → ¬newer e → t = u) ∧
      (∀ e, s.table.find k c = some e → newer e → t = { u with table := t.table, queue := t.queue, feed := t.feed } ∧ same ∧
        t.table.generation = s.table.generation + 1 ∧ t.table.drops = s.table.drops ∧
        (¬isOver → t.table.find k c = some
          { e with
            level := r.level, seq := r.seq, active := r.active, ackedBy := r.ackedBy, shelved := r.shelved
            value := r.value, changedRound := round }) ∧
        (isOver → t.table.find k c = none) ∧
        (s.queueSound = true → t.queue = queueAfterStale [(k, c)] s.queue ∧
          (¬isOver → t.feed =
            recorded (s.feed.arrive s.image.watermark round (decide (r.level.severity = 3) && r.ackedBy.isNone)
              (.entryChanged k c r.level r.seq r.active r.ackedBy))) ∧
          (isOver → ∃ l q, (l = e.level ∨ l = r.level) ∧ (q = e.seq ∨ q = r.seq) ∧
            t.feed = recorded (s.feed.arrive s.image.watermark round false (.entryRemoved k c l q .cleared r.ackedBy)))))

/-- A newcomer to a table with 88 remote entries: the victim is the first remote entry by severity, acknowledgement, activity,
age, origin, channel; it gives way to a graver newcomer, or to an unacked one of its own severity where it is acked. An ACK
entry of the victim goes stale, with ACK_SUPERSEDED after the records of the eviction and of the newcomer.
Model's choices in it: log entry 18. -/
def Obligations.FullTableAdmitsByItsVictim : Prop :=
  ∀ (s : State) (w : Window) (read : BitVec 54) (k : StationId) (kind : NoticeKind) (c : Channel) (r : Record) (v : Entry),
    s.listensTo w → judgeFrame read = .accepted k (.announcement kind c r) → k ≠ s.id → s.table.find k c = none →
    ¬(r.active = false ∧ r.ackedBy ≠ none) → s.tableSound = true →
    (s.table.entries.filter (fun e => decide (e.origin ≠ s.id))).length = 88 →
    v ∈ s.table.entries → v.origin ≠ s.id →
    (∀ e ∈ s.table.entries, e.origin ≠ s.id → e ≠ v →
      v.severity < e.severity ∨ (v.severity = e.severity ∧
        ((v.acked = true ∧ e.acked = false) ∨ (v.acked = e.acked ∧
          ((v.active = false ∧ e.active = true) ∨ (v.active = e.active ∧
            (v.firstRound.toNat < e.firstRound.toNat ∨ (v.firstRound = e.firstRound ∧
              (v.origin < e.origin ∨ (v.origin = e.origin ∧ v.channel < e.channel)))))))))) →
    ∃ t, exec (.frameJudged read) s = .next t ∧
      let u := s.afterFrame w read .accepted
      let admits : Prop := v.severity < r.level.severity ∨
        (v.severity = r.level.severity ∧ v.acked = true ∧ r.ackedBy = none)
      (¬admits → t =
        { u with
          table := { s.table with drops := if s.table.drops = 0xFFFF#16 then 0xFFFF#16 else s.table.drops + 1 }
          feed := s.feed.arrive s.image.watermark s.line.round false
            (.noticeDropped k c r.level r.seq r.active r.ackedBy.isSome) }) ∧
      (admits → t = { u with table := t.table, queue := t.queue, feed := t.feed } ∧
        t.table.find v.origin v.channel = none ∧ (t.table.find k c).isSome = true ∧
        (∀ o d, ¬(o = k ∧ d = c) → ¬(o = v.origin ∧ d = v.channel) → t.table.find o d = s.table.find o d) ∧
        t.table.generation = s.table.generation + 2 ∧ t.table.drops = s.table.drops ∧
        (s.queueSound = true → t.queue = queueAfterStale [(v.origin, v.channel)] s.queue ∧
          t.feed = (((s.feed.arrive s.image.watermark s.line.round false
              (.entryEvicted v.origin v.channel v.level v.seq)).arrive s.image.watermark s.line.round
            (decide (r.level.severity = 3) && r.ackedBy.isNone) (.entryAdded k c r.level r.seq r.active r.ackedBy)).recordAll
              s.image.watermark s.line.round (staleRecords [(v.origin, v.channel)] s.queue))))

/-- An ACK, received from another station or sent whole by this one, acknowledges an active entry of its very seq and removes a
cleared one; an own channel's record takes it too. A removal by another station's ACK makes this station's own ACK entry of the
key stale, with ACK_SUPERSEDED after the table's record. Otherwise table, monitors, queue and feed stay.
Model's choices in it: log entry 18. -/
def Obligations.AcknowledgementsAreApplied : Prop :=
  ∀ (s : State) (w : Window) (command : Instr) (k o : StationId) (c : Channel) (seq : Seq),
    ((s.listensTo w ∧ k ≠ s.id ∧ ∃ read, command = .frameJudged read ∧ judgeFrame read = .accepted k (.ack o c seq)) ∨
      (k = s.id ∧ command = .frameSentWhole ∧ w.sentWhole = false ∧ (∃ n b, s.line.position = .round (.window n) b) ∧
        ∃ f e, s.sends .sender w f e ∧ f.key.toNat / 32 % 8 = 2 ∧ f.payload = ackPayload o c seq)) →
    ∃ t, exec command s = .next t ∧
      t = { s with
        line := t.line, table := t.table, monitors := t.monitors, queue := t.queue, feed := t.feed, ann := t.ann } ∧
      t.line = { s.line with
        position := .round (.window s.line.windowsUsed) 55, window := t.line.window, tx := t.line.tx
        abandons := if k = s.id then 0 else s.line.abandons } ∧
      ((∀ e, s.table.find o c = some e → e.seq ≠ seq ∨ e.ackedBy ≠ none) →
        t.table = s.table ∧ t.monitors = s.monitors ∧ t.queue = s.queue ∧ t.feed = s.feed ∧ t.ann = s.ann) ∧
      (∀ e, s.table.find o c = some e → e.seq = seq → e.ackedBy = none →
        t.table.generation = s.table.generation + 1 ∧
        (∀ o' c', ¬(o' = o ∧ c' = c) → t.table.find o' c' = s.table.find o' c') ∧
        (∀ d, t.monitor d =
          if o = s.id ∧ d = c then
            { s.monitor d with record := { (s.monitor d).record with ackedBy := some k } }
          else s.monitor d) ∧
        (e.active = true →
          t.table.find o c = some { e with ackedBy := some k, changedRound := s.line.round } ∧ t.queue = s.queue ∧
          t.feed = s.feed.arrive s.image.watermark s.line.round false (.entryAcked o c e.level seq k)) ∧
        (e.active = false → t.table.find o c = none ∧
          (s.queueSound = true →
            let keys := if k = s.id then [] else [(o, c)]
            t.queue = queueAfterStale keys s.queue ∧
            t.feed = (s.feed.arrive s.image.watermark s.line.round false
              (.entryRemoved o c e.level seq .ackedAfterClear (some k))).recordAll s.image.watermark s.line.round
                (staleRecords keys s.queue))))

/-- A REPLAY of another station: CONFIG_MISMATCH where its parameters differ from the image; every entry of the origin removed with
reason REJOIN; its id out of every receipt; a STATE entry for each own condition without an entry, in channel order; the ACK
entries of the keys removed go stale, with ACK_SUPERSEDED after the table's records.
Model's choices in it: log entries 10, 18. -/
def Obligations.ReplayRemovesTheOriginAndReannounces : Prop :=
  ∀ (s : State) (w : Window) (read : BitVec 54) (k : StationId) (groupSize : BitVec 6) (windows : BitVec 3)
    (period : BitVec 14),
    s.listensTo w → judgeFrame read = .accepted k (.replay groupSize windows period) → k ≠ s.id → s.queueSound = true →
    s.tableSound = true →
    ∃ t, exec (.frameJudged read) s = .next t ∧
      t = { s.afterFrame w read .accepted with table := t.table, queue := t.queue, feed := t.feed } ∧
      let gone := s.table.entries.filter (fun e => decide (e.origin = k))
      let mismatch : Prop := groupSize.toNat ≠ s.image.groupSize ∨ windows.toNat ≠ s.image.windows ∨
        period.toNat ≠ s.image.period
      t.table.entries = s.table.entries.filter (fun e => decide (e.origin ≠ k)) ∧
      t.table.generation = s.table.generation + BitVec.ofNat 16 gone.length ∧ t.table.drops = s.table.drops ∧
      let keys := gone.map (fun e => (e.origin, e.channel))
      t.queue = queueAfterStale keys (s.queue.map (fun e => { e with receipts := e.receipts &&& ~~~(idBit k) })) ++
        (channelOrder.filter (fun c =>
          (s.table.find s.id c).isSome && (slotEntry (channelSlot c) s.queue).isNone)).map (fun c =>
            { slot := channelSlot c, notice := .channel c true, state := .waiting, restage := false, withdraw := false
              attempts := 0, receipts := 0 }) ∧
      (mismatch → t.feed = s.feed.recordAll s.image.watermark s.line.round
        (.configMismatch k groupSize windows period ::
          (gone.map (fun e => .entryRemoved e.origin e.channel e.level e.seq .rejoin e.ackedBy) ++ staleRecords keys s.queue))) ∧
      (¬mismatch → t.feed = s.feed.recordAll s.image.watermark s.line.round
        (gone.map (fun e => .entryRemoved e.origin e.channel e.level e.seq .rejoin e.ackedBy) ++ staleRecords keys s.queue))

/-! ### Line supervision -/

/-- A stuck line takes the engine OFF with everything of its round dropped, writes an urgent LINE_STUCK and takes the station to
STUCK, or keeps it QUIET. The line restored brings SEEK, LINE_RESTORED, and a STUCK station to LISTEN with a fresh watch.
Model's choices in it: log entries 3, 8, 13, 25. -/
def Obligations.StuckLineAndItsRecovery : Prop :=
  ∀ s : State, s.rst = false →
    let off (l : LineEngine) : LineEngine :=
      { l with
        lineState := .stuck, position := .off, roundTimer := none, deferredMark := false, ownMark := false, censusMap := 0
        sweep := none, window := none, tx := [], drivenRun := max 40 l.drivenRun, releasedRun := 0, idleRun := 0 }
    let up : LineEngine :=
      { s.line with
        lineState := .up, position := .seek, roundTimer := none, drivenRun := 0, releasedRun := max 64 s.line.releasedRun
        idleRun := 0 }
    let stuckFeed := s.feed.arrive s.image.watermark s.line.round true .lineStuck
    let upFeed := s.feed.arrive s.image.watermark s.line.round false .lineRestored
    (s.line.lineState = .up →
      (s.station = .quiet → exec .lineStuck s = .next { s with line := off s.line, feed := stuckFeed }) ∧
      ((s.station = .listen ∨ ((s.station = .joining ∨ s.station = .active) ∧ lineEntry s.queue = none)) →
        exec .lineStuck s = .next
          { s with
            station := .stuck, cause := .none, silenceTimer := none, line := off s.line, feed := stuckFeed
            ann := { s.ann with link := false, code := s.ann.own } }) ∧
      (∀ e, (s.station = .joining ∨ s.station = .active) → lineEntry s.queue = some e → s.queueSound = true →
        ∃ t, exec .lineStuck s = .next t ∧ t.line = off s.line ∧ t.station = .stuck ∧ t.ann.link = false ∧
          t.table = s.table ∧ t.monitors = s.monitors ∧ t.roster = s.roster ∧ lineEntry t.queue = none ∧
          (e.state = .candidate → t.queue = (s.lostPart e).1))) ∧
    (s.line.lineState = .stuck →
      (s.station = .quiet → exec .lineRestored s = .next { s with line := up, feed := upFeed }) ∧
      (s.station = .stuck →
        exec .lineRestored s = .next
          { s with
            station := .listen, cause := .none, listenCount := 0, silenceTimer := some (3 * s.image.period), line := up
            feed := upFeed }))
end

