-- ==== Sys2Proof/Laws/State.lean ====
section
/-! SUPPORT. One lemma for each field of the state and each shared update, so that no later proof unfolds a record update. -/

namespace Sys2Proof.Machine

variable (s : State)

/-! ### A record written to the feed changes the feed alone (R192, R194). -/

@[simp] theorem State.write_pending (b : FeedBody) (u : Bool) : (s.write b u).pending = s.pending := rfl
@[simp] theorem State.write_rst (b : FeedBody) (u : Bool) : (s.write b u).rst = s.rst := rfl
@[simp] theorem State.write_scsPin (b : FeedBody) (u : Bool) : (s.write b u).scsPin = s.scsPin := rfl
@[simp] theorem State.write_cfsPin (b : FeedBody) (u : Bool) : (s.write b u).cfsPin = s.cfsPin := rfl
@[simp] theorem State.write_grxAhead (b : FeedBody) (u : Bool) : (s.write b u).grxAhead = s.grxAhead := rfl
@[simp] theorem State.write_bitTimes (b : FeedBody) (u : Bool) : (s.write b u).bitTimes = s.bitTimes := rfl
@[simp] theorem State.write_id (b : FeedBody) (u : Bool) : (s.write b u).id = s.id := rfl
@[simp] theorem State.write_station (b : FeedBody) (u : Bool) : (s.write b u).station = s.station := rfl
@[simp] theorem State.write_cause (b : FeedBody) (u : Bool) : (s.write b u).cause = s.cause := rfl
@[simp] theorem State.write_isSealed (b : FeedBody) (u : Bool) : (s.write b u).isSealed = s.isSealed := rfl
@[simp] theorem State.write_image (b : FeedBody) (u : Bool) : (s.write b u).image = s.image := rfl
@[simp] theorem State.write_listenCount (b : FeedBody) (u : Bool) : (s.write b u).listenCount = s.listenCount := rfl
@[simp] theorem State.write_silenceTimer (b : FeedBody) (u : Bool) : (s.write b u).silenceTimer = s.silenceTimer := rfl
@[simp] theorem State.write_assembler (b : FeedBody) (u : Bool) : (s.write b u).assembler = s.assembler := rfl
@[simp] theorem State.write_framingErrors (b : FeedBody) (u : Bool) :
    (s.write b u).framingErrors =
      s.framingErrors := rfl
@[simp] theorem State.write_monitors (b : FeedBody) (u : Bool) : (s.write b u).monitors = s.monitors := rfl
@[simp] theorem State.write_table (b : FeedBody) (u : Bool) : (s.write b u).table = s.table := rfl
@[simp] theorem State.write_queue (b : FeedBody) (u : Bool) : (s.write b u).queue = s.queue := rfl
@[simp] theorem State.write_line (b : FeedBody) (u : Bool) : (s.write b u).line = s.line := rfl
@[simp] theorem State.write_roster (b : FeedBody) (u : Bool) : (s.write b u).roster = s.roster := rfl
@[simp] theorem State.write_ann (b : FeedBody) (u : Bool) : (s.write b u).ann = s.ann := rfl
@[simp] theorem State.write_port (b : FeedBody) (u : Bool) : (s.write b u).port = s.port := rfl
@[simp] theorem State.write_feed (b : FeedBody) (u : Bool) :
    (s.write b u).feed =
      s.feed.arrive s.image.watermark s.line.round u b := rfl

/-! ### The own contribution computed afresh changes the annunciation unit alone (R164). -/

@[simp] theorem State.recompute_pending : (s.recompute).pending = s.pending := rfl
@[simp] theorem State.recompute_rst : (s.recompute).rst = s.rst := rfl
@[simp] theorem State.recompute_scsPin : (s.recompute).scsPin = s.scsPin := rfl
@[simp] theorem State.recompute_cfsPin : (s.recompute).cfsPin = s.cfsPin := rfl
@[simp] theorem State.recompute_grxAhead : (s.recompute).grxAhead = s.grxAhead := rfl
@[simp] theorem State.recompute_bitTimes : (s.recompute).bitTimes = s.bitTimes := rfl
@[simp] theorem State.recompute_id : (s.recompute).id = s.id := rfl
@[simp] theorem State.recompute_station : (s.recompute).station = s.station := rfl
@[simp] theorem State.recompute_cause : (s.recompute).cause = s.cause := rfl
@[simp] theorem State.recompute_isSealed : (s.recompute).isSealed = s.isSealed := rfl
@[simp] theorem State.recompute_image : (s.recompute).image = s.image := rfl
@[simp] theorem State.recompute_listenCount : (s.recompute).listenCount = s.listenCount := rfl
@[simp] theorem State.recompute_silenceTimer : (s.recompute).silenceTimer = s.silenceTimer := rfl
@[simp] theorem State.recompute_assembler : (s.recompute).assembler = s.assembler := rfl
@[simp] theorem State.recompute_framingErrors : (s.recompute).framingErrors = s.framingErrors := rfl
@[simp] theorem State.recompute_monitors : (s.recompute).monitors = s.monitors := rfl
@[simp] theorem State.recompute_table : (s.recompute).table = s.table := rfl
@[simp] theorem State.recompute_queue : (s.recompute).queue = s.queue := rfl
@[simp] theorem State.recompute_line : (s.recompute).line = s.line := rfl
@[simp] theorem State.recompute_roster : (s.recompute).roster = s.roster := rfl
@[simp] theorem State.recompute_ann :
    (s.recompute).ann =
      { s.ann with own := ownContribution s.id s.table.entries, code := if s.ann.link then s.ann.code else ownContribution s.id s.table.entries } := rfl
@[simp] theorem State.recompute_port : (s.recompute).port = s.port := rfl
@[simp] theorem State.recompute_feed : (s.recompute).feed = s.feed := rfl

/-! ### The release of ANN_LINK changes the annunciation unit alone (R167). -/

@[simp] theorem State.releaseLink_pending : (s.releaseLink).pending = s.pending := rfl
@[simp] theorem State.releaseLink_rst : (s.releaseLink).rst = s.rst := rfl
@[simp] theorem State.releaseLink_scsPin : (s.releaseLink).scsPin = s.scsPin := rfl
@[simp] theorem State.releaseLink_cfsPin : (s.releaseLink).cfsPin = s.cfsPin := rfl
@[simp] theorem State.releaseLink_grxAhead : (s.releaseLink).grxAhead = s.grxAhead := rfl
@[simp] theorem State.releaseLink_bitTimes : (s.releaseLink).bitTimes = s.bitTimes := rfl
@[simp] theorem State.releaseLink_id : (s.releaseLink).id = s.id := rfl
@[simp] theorem State.releaseLink_station : (s.releaseLink).station = s.station := rfl
@[simp] theorem State.releaseLink_cause : (s.releaseLink).cause = s.cause := rfl
@[simp] theorem State.releaseLink_isSealed : (s.releaseLink).isSealed = s.isSealed := rfl
@[simp] theorem State.releaseLink_image : (s.releaseLink).image = s.image := rfl
@[simp] theorem State.releaseLink_listenCount : (s.releaseLink).listenCount = s.listenCount := rfl
@[simp] theorem State.releaseLink_silenceTimer : (s.releaseLink).silenceTimer = s.silenceTimer := rfl
@[simp] theorem State.releaseLink_assembler : (s.releaseLink).assembler = s.assembler := rfl
@[simp] theorem State.releaseLink_framingErrors : (s.releaseLink).framingErrors = s.framingErrors := rfl
@[simp] theorem State.releaseLink_monitors : (s.releaseLink).monitors = s.monitors := rfl
@[simp] theorem State.releaseLink_table : (s.releaseLink).table = s.table := rfl
@[simp] theorem State.releaseLink_queue : (s.releaseLink).queue = s.queue := rfl
@[simp] theorem State.releaseLink_line : (s.releaseLink).line = s.line := rfl
@[simp] theorem State.releaseLink_roster : (s.releaseLink).roster = s.roster := rfl
@[simp] theorem State.releaseLink_ann : (s.releaseLink).ann = { s.ann with link := false, code := s.ann.own } := rfl
@[simp] theorem State.releaseLink_port : (s.releaseLink).port = s.port := rfl
@[simp] theorem State.releaseLink_feed : (s.releaseLink).feed = s.feed := rfl

/-! ### A channel's monitor changed. -/

@[simp] theorem State.setMonitor_pending (c : Channel) (m : Monitor) : (s.setMonitor c m).pending = s.pending := rfl
@[simp] theorem State.setMonitor_rst (c : Channel) (m : Monitor) : (s.setMonitor c m).rst = s.rst := rfl
@[simp] theorem State.setMonitor_scsPin (c : Channel) (m : Monitor) : (s.setMonitor c m).scsPin = s.scsPin := rfl
@[simp] theorem State.setMonitor_cfsPin (c : Channel) (m : Monitor) : (s.setMonitor c m).cfsPin = s.cfsPin := rfl
@[simp] theorem State.setMonitor_grxAhead (c : Channel) (m : Monitor) : (s.setMonitor c m).grxAhead = s.grxAhead := rfl
@[simp] theorem State.setMonitor_bitTimes (c : Channel) (m : Monitor) : (s.setMonitor c m).bitTimes = s.bitTimes := rfl
@[simp] theorem State.setMonitor_id (c : Channel) (m : Monitor) : (s.setMonitor c m).id = s.id := rfl
@[simp] theorem State.setMonitor_station (c : Channel) (m : Monitor) : (s.setMonitor c m).station = s.station := rfl
@[simp] theorem State.setMonitor_cause (c : Channel) (m : Monitor) : (s.setMonitor c m).cause = s.cause := rfl
@[simp] theorem State.setMonitor_isSealed (c : Channel) (m : Monitor) : (s.setMonitor c m).isSealed = s.isSealed := rfl
@[simp] theorem State.setMonitor_image (c : Channel) (m : Monitor) : (s.setMonitor c m).image = s.image := rfl
@[simp] theorem State.setMonitor_listenCount (c : Channel) (m : Monitor) :
    (s.setMonitor c m).listenCount =
      s.listenCount := rfl
@[simp] theorem State.setMonitor_silenceTimer (c : Channel) (m : Monitor) :
    (s.setMonitor c m).silenceTimer =
      s.silenceTimer := rfl
@[simp] theorem State.setMonitor_assembler (c : Channel) (m : Monitor) :
    (s.setMonitor c m).assembler =
      s.assembler := rfl
@[simp] theorem State.setMonitor_framingErrors (c : Channel) (m : Monitor) :
    (s.setMonitor c m).framingErrors =
      s.framingErrors := rfl
@[simp] theorem State.setMonitor_monitors (c : Channel) (m : Monitor) :
    (s.setMonitor c m).monitors =
      s.monitors.set c m c.isLt := rfl
@[simp] theorem State.setMonitor_table (c : Channel) (m : Monitor) : (s.setMonitor c m).table = s.table := rfl
@[simp] theorem State.setMonitor_queue (c : Channel) (m : Monitor) : (s.setMonitor c m).queue = s.queue := rfl
@[simp] theorem State.setMonitor_line (c : Channel) (m : Monitor) : (s.setMonitor c m).line = s.line := rfl
@[simp] theorem State.setMonitor_roster (c : Channel) (m : Monitor) : (s.setMonitor c m).roster = s.roster := rfl
@[simp] theorem State.setMonitor_ann (c : Channel) (m : Monitor) : (s.setMonitor c m).ann = s.ann := rfl
@[simp] theorem State.setMonitor_port (c : Channel) (m : Monitor) : (s.setMonitor c m).port = s.port := rfl
@[simp] theorem State.setMonitor_feed (c : Channel) (m : Monitor) : (s.setMonitor c m).feed = s.feed := rfl

/-! ### A roster record changed. -/

@[simp] theorem State.setPeer_pending (k : StationId) (p : Peer) : (s.setPeer k p).pending = s.pending := rfl
@[simp] theorem State.setPeer_rst (k : StationId) (p : Peer) : (s.setPeer k p).rst = s.rst := rfl
@[simp] theorem State.setPeer_scsPin (k : StationId) (p : Peer) : (s.setPeer k p).scsPin = s.scsPin := rfl
@[simp] theorem State.setPeer_cfsPin (k : StationId) (p : Peer) : (s.setPeer k p).cfsPin = s.cfsPin := rfl
@[simp] theorem State.setPeer_grxAhead (k : StationId) (p : Peer) : (s.setPeer k p).grxAhead = s.grxAhead := rfl
@[simp] theorem State.setPeer_bitTimes (k : StationId) (p : Peer) : (s.setPeer k p).bitTimes = s.bitTimes := rfl
@[simp] theorem State.setPeer_id (k : StationId) (p : Peer) : (s.setPeer k p).id = s.id := rfl
@[simp] theorem State.setPeer_station (k : StationId) (p : Peer) : (s.setPeer k p).station = s.station := rfl
@[simp] theorem State.setPeer_cause (k : StationId) (p : Peer) : (s.setPeer k p).cause = s.cause := rfl
@[simp] theorem State.setPeer_isSealed (k : StationId) (p : Peer) : (s.setPeer k p).isSealed = s.isSealed := rfl
@[simp] theorem State.setPeer_image (k : StationId) (p : Peer) : (s.setPeer k p).image = s.image := rfl
@[simp] theorem State.setPeer_listenCount (k : StationId) (p : Peer) :
    (s.setPeer k p).listenCount =
      s.listenCount := rfl
@[simp] theorem State.setPeer_silenceTimer (k : StationId) (p : Peer) :
    (s.setPeer k p).silenceTimer =
      s.silenceTimer := rfl
@[simp] theorem State.setPeer_assembler (k : StationId) (p : Peer) : (s.setPeer k p).assembler = s.assembler := rfl
@[simp] theorem State.setPeer_framingErrors (k : StationId) (p : Peer) :
    (s.setPeer k p).framingErrors =
      s.framingErrors := rfl
@[simp] theorem State.setPeer_monitors (k : StationId) (p : Peer) : (s.setPeer k p).monitors = s.monitors := rfl
@[simp] theorem State.setPeer_table (k : StationId) (p : Peer) : (s.setPeer k p).table = s.table := rfl
@[simp] theorem State.setPeer_queue (k : StationId) (p : Peer) : (s.setPeer k p).queue = s.queue := rfl
@[simp] theorem State.setPeer_line (k : StationId) (p : Peer) : (s.setPeer k p).line = s.line := rfl
@[simp] theorem State.setPeer_roster (k : StationId) (p : Peer) :
    (s.setPeer k p).roster =
      s.roster.set k p k.isLt := rfl
@[simp] theorem State.setPeer_ann (k : StationId) (p : Peer) : (s.setPeer k p).ann = s.ann := rfl
@[simp] theorem State.setPeer_port (k : StationId) (p : Peer) : (s.setPeer k p).port = s.port := rfl
@[simp] theorem State.setPeer_feed (k : StationId) (p : Peer) : (s.setPeer k p).feed = s.feed := rfl

/-! ### An entry changed in the table (R44). -/

@[simp] theorem State.storeEntry_pending (e : Entry) : (s.storeEntry e).pending = s.pending := rfl
@[simp] theorem State.storeEntry_rst (e : Entry) : (s.storeEntry e).rst = s.rst := rfl
@[simp] theorem State.storeEntry_scsPin (e : Entry) : (s.storeEntry e).scsPin = s.scsPin := rfl
@[simp] theorem State.storeEntry_cfsPin (e : Entry) : (s.storeEntry e).cfsPin = s.cfsPin := rfl
@[simp] theorem State.storeEntry_grxAhead (e : Entry) : (s.storeEntry e).grxAhead = s.grxAhead := rfl
@[simp] theorem State.storeEntry_bitTimes (e : Entry) : (s.storeEntry e).bitTimes = s.bitTimes := rfl
@[simp] theorem State.storeEntry_id (e : Entry) : (s.storeEntry e).id = s.id := rfl
@[simp] theorem State.storeEntry_station (e : Entry) : (s.storeEntry e).station = s.station := rfl
@[simp] theorem State.storeEntry_cause (e : Entry) : (s.storeEntry e).cause = s.cause := rfl
@[simp] theorem State.storeEntry_isSealed (e : Entry) : (s.storeEntry e).isSealed = s.isSealed := rfl
@[simp] theorem State.storeEntry_image (e : Entry) : (s.storeEntry e).image = s.image := rfl
@[simp] theorem State.storeEntry_listenCount (e : Entry) : (s.storeEntry e).listenCount = s.listenCount := rfl
@[simp] theorem State.storeEntry_silenceTimer (e : Entry) : (s.storeEntry e).silenceTimer = s.silenceTimer := rfl
@[simp] theorem State.storeEntry_assembler (e : Entry) : (s.storeEntry e).assembler = s.assembler := rfl
@[simp] theorem State.storeEntry_framingErrors (e : Entry) : (s.storeEntry e).framingErrors = s.framingErrors := rfl
@[simp] theorem State.storeEntry_monitors (e : Entry) : (s.storeEntry e).monitors = s.monitors := rfl
@[simp] theorem State.storeEntry_table (e : Entry) :
    (s.storeEntry e).table =
      { s.table with entries := replaceEntry e s.table.entries, generation := s.table.generation + 1 } := rfl
@[simp] theorem State.storeEntry_queue (e : Entry) : (s.storeEntry e).queue = s.queue := rfl
@[simp] theorem State.storeEntry_line (e : Entry) : (s.storeEntry e).line = s.line := rfl
@[simp] theorem State.storeEntry_roster (e : Entry) : (s.storeEntry e).roster = s.roster := rfl
@[simp] theorem State.storeEntry_ann (e : Entry) : (s.storeEntry e).ann = s.ann := rfl
@[simp] theorem State.storeEntry_port (e : Entry) : (s.storeEntry e).port = s.port := rfl
@[simp] theorem State.storeEntry_feed (e : Entry) : (s.storeEntry e).feed = s.feed := rfl

/-! ### An entry taken out of the table (R44). -/

@[simp] theorem State.dropEntry_pending (o : StationId) (c : Channel) : (s.dropEntry o c).pending = s.pending := rfl
@[simp] theorem State.dropEntry_rst (o : StationId) (c : Channel) : (s.dropEntry o c).rst = s.rst := rfl
@[simp] theorem State.dropEntry_scsPin (o : StationId) (c : Channel) : (s.dropEntry o c).scsPin = s.scsPin := rfl
@[simp] theorem State.dropEntry_cfsPin (o : StationId) (c : Channel) : (s.dropEntry o c).cfsPin = s.cfsPin := rfl
@[simp] theorem State.dropEntry_grxAhead (o : StationId) (c : Channel) : (s.dropEntry o c).grxAhead = s.grxAhead := rfl
@[simp] theorem State.dropEntry_bitTimes (o : StationId) (c : Channel) : (s.dropEntry o c).bitTimes = s.bitTimes := rfl
@[simp] theorem State.dropEntry_id (o : StationId) (c : Channel) : (s.dropEntry o c).id = s.id := rfl
@[simp] theorem State.dropEntry_station (o : StationId) (c : Channel) : (s.dropEntry o c).station = s.station := rfl
@[simp] theorem State.dropEntry_cause (o : StationId) (c : Channel) : (s.dropEntry o c).cause = s.cause := rfl
@[simp] theorem State.dropEntry_isSealed (o : StationId) (c : Channel) : (s.dropEntry o c).isSealed = s.isSealed := rfl
@[simp] theorem State.dropEntry_image (o : StationId) (c : Channel) : (s.dropEntry o c).image = s.image := rfl
@[simp] theorem State.dropEntry_listenCount (o : StationId) (c : Channel) :
    (s.dropEntry o c).listenCount =
      s.listenCount := rfl
@[simp] theorem State.dropEntry_silenceTimer (o : StationId) (c : Channel) :
    (s.dropEntry o c).silenceTimer =
      s.silenceTimer := rfl
@[simp] theorem State.dropEntry_assembler (o : StationId) (c : Channel) :
    (s.dropEntry o c).assembler =
      s.assembler := rfl
@[simp] theorem State.dropEntry_framingErrors (o : StationId) (c : Channel) :
    (s.dropEntry o c).framingErrors =
      s.framingErrors := rfl
@[simp] theorem State.dropEntry_monitors (o : StationId) (c : Channel) : (s.dropEntry o c).monitors = s.monitors := rfl
@[simp] theorem State.dropEntry_table (o : StationId) (c : Channel) :
    (s.dropEntry o c).table =
      { s.table with entries := Machine.dropEntry o c s.table.entries, generation := s.table.generation + 1 } := rfl
@[simp] theorem State.dropEntry_queue (o : StationId) (c : Channel) : (s.dropEntry o c).queue = s.queue := rfl
@[simp] theorem State.dropEntry_line (o : StationId) (c : Channel) : (s.dropEntry o c).line = s.line := rfl
@[simp] theorem State.dropEntry_roster (o : StationId) (c : Channel) : (s.dropEntry o c).roster = s.roster := rfl
@[simp] theorem State.dropEntry_ann (o : StationId) (c : Channel) : (s.dropEntry o c).ann = s.ann := rfl
@[simp] theorem State.dropEntry_port (o : StationId) (c : Channel) : (s.dropEntry o c).port = s.port := rfl
@[simp] theorem State.dropEntry_feed (o : StationId) (c : Channel) : (s.dropEntry o c).feed = s.feed := rfl

/-! ### An origin's entries orphaned or un-orphaned (R64, R65). -/

@[simp] theorem State.markOrphans_pending (k : StationId) (o : Bool) (n : Nat) :
    (s.markOrphans k o n).pending =
      s.pending := rfl
@[simp] theorem State.markOrphans_rst (k : StationId) (o : Bool) (n : Nat) : (s.markOrphans k o n).rst = s.rst := rfl
@[simp] theorem State.markOrphans_scsPin (k : StationId) (o : Bool) (n : Nat) :
    (s.markOrphans k o n).scsPin =
      s.scsPin := rfl
@[simp] theorem State.markOrphans_cfsPin (k : StationId) (o : Bool) (n : Nat) :
    (s.markOrphans k o n).cfsPin =
      s.cfsPin := rfl
@[simp] theorem State.markOrphans_grxAhead (k : StationId) (o : Bool) (n : Nat) :
    (s.markOrphans k o n).grxAhead =
      s.grxAhead := rfl
@[simp] theorem State.markOrphans_bitTimes (k : StationId) (o : Bool) (n : Nat) :
    (s.markOrphans k o n).bitTimes =
      s.bitTimes := rfl
@[simp] theorem State.markOrphans_id (k : StationId) (o : Bool) (n : Nat) : (s.markOrphans k o n).id = s.id := rfl
@[simp] theorem State.markOrphans_station (k : StationId) (o : Bool) (n : Nat) :
    (s.markOrphans k o n).station =
      s.station := rfl
@[simp] theorem State.markOrphans_cause (k : StationId) (o : Bool) (n : Nat) :
    (s.markOrphans k o n).cause =
      s.cause := rfl
@[simp] theorem State.markOrphans_isSealed (k : StationId) (o : Bool) (n : Nat) :
    (s.markOrphans k o n).isSealed =
      s.isSealed := rfl
@[simp] theorem State.markOrphans_image (k : StationId) (o : Bool) (n : Nat) :
    (s.markOrphans k o n).image =
      s.image := rfl
@[simp] theorem State.markOrphans_listenCount (k : StationId) (o : Bool) (n : Nat) :
    (s.markOrphans k o n).listenCount =
      s.listenCount := rfl
@[simp] theorem State.markOrphans_silenceTimer (k : StationId) (o : Bool) (n : Nat) :
    (s.markOrphans k o n).silenceTimer =
      s.silenceTimer := rfl
@[simp] theorem State.markOrphans_assembler (k : StationId) (o : Bool) (n : Nat) :
    (s.markOrphans k o n).assembler =
      s.assembler := rfl
@[simp] theorem State.markOrphans_framingErrors (k : StationId) (o : Bool) (n : Nat) :
    (s.markOrphans k o n).framingErrors =
      s.framingErrors := rfl
@[simp] theorem State.markOrphans_monitors (k : StationId) (o : Bool) (n : Nat) :
    (s.markOrphans k o n).monitors =
      s.monitors := rfl
@[simp] theorem State.markOrphans_table (k : StationId) (o : Bool) (n : Nat) :
    (s.markOrphans k o n).table =
      { s.table with entries := s.table.entries.map (fun e => if e.origin = k then { e with orphaned := o } else e), generation := s.table.generation + BitVec.ofNat 16 n } := rfl
@[simp] theorem State.markOrphans_queue (k : StationId) (o : Bool) (n : Nat) :
    (s.markOrphans k o n).queue =
      s.queue := rfl
@[simp] theorem State.markOrphans_line (k : StationId) (o : Bool) (n : Nat) : (s.markOrphans k o n).line = s.line := rfl
@[simp] theorem State.markOrphans_roster (k : StationId) (o : Bool) (n : Nat) :
    (s.markOrphans k o n).roster =
      s.roster := rfl
@[simp] theorem State.markOrphans_ann (k : StationId) (o : Bool) (n : Nat) : (s.markOrphans k o n).ann = s.ann := rfl
@[simp] theorem State.markOrphans_port (k : StationId) (o : Bool) (n : Nat) : (s.markOrphans k o n).port = s.port := rfl
@[simp] theorem State.markOrphans_feed (k : StationId) (o : Bool) (n : Nat) : (s.markOrphans k o n).feed = s.feed := rfl

/-! ### An abandonment counted (R129). -/

@[simp] theorem State.countAbandon_pending : (s.countAbandon).pending = s.pending := rfl
@[simp] theorem State.countAbandon_rst : (s.countAbandon).rst = s.rst := rfl
@[simp] theorem State.countAbandon_scsPin : (s.countAbandon).scsPin = s.scsPin := rfl
@[simp] theorem State.countAbandon_cfsPin : (s.countAbandon).cfsPin = s.cfsPin := rfl
@[simp] theorem State.countAbandon_grxAhead : (s.countAbandon).grxAhead = s.grxAhead := rfl
@[simp] theorem State.countAbandon_bitTimes : (s.countAbandon).bitTimes = s.bitTimes := rfl
@[simp] theorem State.countAbandon_id : (s.countAbandon).id = s.id := rfl
@[simp] theorem State.countAbandon_station : (s.countAbandon).station = s.station := rfl
@[simp] theorem State.countAbandon_cause : (s.countAbandon).cause = s.cause := rfl
@[simp] theorem State.countAbandon_isSealed : (s.countAbandon).isSealed = s.isSealed := rfl
@[simp] theorem State.countAbandon_image : (s.countAbandon).image = s.image := rfl
@[simp] theorem State.countAbandon_listenCount : (s.countAbandon).listenCount = s.listenCount := rfl
@[simp] theorem State.countAbandon_silenceTimer : (s.countAbandon).silenceTimer = s.silenceTimer := rfl
@[simp] theorem State.countAbandon_assembler : (s.countAbandon).assembler = s.assembler := rfl
@[simp] theorem State.countAbandon_framingErrors : (s.countAbandon).framingErrors = s.framingErrors := rfl
@[simp] theorem State.countAbandon_monitors : (s.countAbandon).monitors = s.monitors := rfl
@[simp] theorem State.countAbandon_table : (s.countAbandon).table = s.table := rfl
@[simp] theorem State.countAbandon_queue : (s.countAbandon).queue = s.queue := rfl
@[simp] theorem State.countAbandon_line :
    (s.countAbandon).line =
      { s.line with abandons := satInc s.line.abandons } := rfl
@[simp] theorem State.countAbandon_roster : (s.countAbandon).roster = s.roster := rfl
@[simp] theorem State.countAbandon_ann : (s.countAbandon).ann = s.ann := rfl
@[simp] theorem State.countAbandon_port : (s.countAbandon).port = s.port := rfl
@[simp] theorem State.countAbandon_feed : (s.countAbandon).feed = s.feed := rfl

/-! ### A window's judgement set (R128). -/

@[simp] theorem State.judged_pending (j : Judgement) : (s.judged j).pending = s.pending := rfl
@[simp] theorem State.judged_rst (j : Judgement) : (s.judged j).rst = s.rst := rfl
@[simp] theorem State.judged_scsPin (j : Judgement) : (s.judged j).scsPin = s.scsPin := rfl
@[simp] theorem State.judged_cfsPin (j : Judgement) : (s.judged j).cfsPin = s.cfsPin := rfl
@[simp] theorem State.judged_grxAhead (j : Judgement) : (s.judged j).grxAhead = s.grxAhead := rfl
@[simp] theorem State.judged_bitTimes (j : Judgement) : (s.judged j).bitTimes = s.bitTimes := rfl
@[simp] theorem State.judged_id (j : Judgement) : (s.judged j).id = s.id := rfl
@[simp] theorem State.judged_station (j : Judgement) : (s.judged j).station = s.station := rfl
@[simp] theorem State.judged_cause (j : Judgement) : (s.judged j).cause = s.cause := rfl
@[simp] theorem State.judged_isSealed (j : Judgement) : (s.judged j).isSealed = s.isSealed := rfl
@[simp] theorem State.judged_image (j : Judgement) : (s.judged j).image = s.image := rfl
@[simp] theorem State.judged_listenCount (j : Judgement) : (s.judged j).listenCount = s.listenCount := rfl
@[simp] theorem State.judged_silenceTimer (j : Judgement) : (s.judged j).silenceTimer = s.silenceTimer := rfl
@[simp] theorem State.judged_assembler (j : Judgement) : (s.judged j).assembler = s.assembler := rfl
@[simp] theorem State.judged_framingErrors (j : Judgement) : (s.judged j).framingErrors = s.framingErrors := rfl
@[simp] theorem State.judged_monitors (j : Judgement) : (s.judged j).monitors = s.monitors := rfl
@[simp] theorem State.judged_table (j : Judgement) : (s.judged j).table = s.table := rfl
@[simp] theorem State.judged_queue (j : Judgement) : (s.judged j).queue = s.queue := rfl
@[simp] theorem State.judged_line (j : Judgement) :
    (s.judged j).line =
      { s.line with window := s.line.window.map (fun w => { w with judgement := some j }) } := rfl
@[simp] theorem State.judged_roster (j : Judgement) : (s.judged j).roster = s.roster := rfl
@[simp] theorem State.judged_ann (j : Judgement) : (s.judged j).ann = s.ann := rfl
@[simp] theorem State.judged_port (j : Judgement) : (s.judged j).port = s.port := rfl
@[simp] theorem State.judged_feed (j : Judgement) : (s.judged j).feed = s.feed := rfl

/-! ### The hand-off to the annunciation unit touches that unit alone (R50). -/

@[simp] theorem State.handToAnnunciation_pending (o : StationId) : (s.handToAnnunciation o).pending = s.pending := by
  unfold State.handToAnnunciation; split <;> rfl

@[simp] theorem State.handToAnnunciation_rst (o : StationId) : (s.handToAnnunciation o).rst = s.rst := by
  unfold State.handToAnnunciation; split <;> rfl

@[simp] theorem State.handToAnnunciation_scsPin (o : StationId) : (s.handToAnnunciation o).scsPin = s.scsPin := by
  unfold State.handToAnnunciation; split <;> rfl

@[simp] theorem State.handToAnnunciation_cfsPin (o : StationId) : (s.handToAnnunciation o).cfsPin = s.cfsPin := by
  unfold State.handToAnnunciation; split <;> rfl
@[simp] theorem State.handToAnnunciation_grxAhead (o : StationId) : (s.handToAnnunciation o).grxAhead = s.grxAhead := by
  unfold State.handToAnnunciation; split <;> rfl
@[simp] theorem State.handToAnnunciation_bitTimes (o : StationId) : (s.handToAnnunciation o).bitTimes = s.bitTimes := by
  unfold State.handToAnnunciation; split <;> rfl

@[simp] theorem State.handToAnnunciation_id (o : StationId) : (s.handToAnnunciation o).id = s.id := by
  unfold State.handToAnnunciation; split <;> rfl

@[simp] theorem State.handToAnnunciation_station (o : StationId) : (s.handToAnnunciation o).station = s.station := by
  unfold State.handToAnnunciation; split <;> rfl

@[simp] theorem State.handToAnnunciation_cause (o : StationId) : (s.handToAnnunciation o).cause = s.cause := by
  unfold State.handToAnnunciation; split <;> rfl

@[simp] theorem State.handToAnnunciation_isSealed (o : StationId) : (s.handToAnnunciation o).isSealed = s.isSealed := by
  unfold State.handToAnnunciation; split <;> rfl

@[simp] theorem State.handToAnnunciation_image (o : StationId) : (s.handToAnnunciation o).image = s.image := by
  unfold State.handToAnnunciation; split <;> rfl

@[simp] theorem State.handToAnnunciation_listenCount (o : StationId) : (s.handToAnnunciation o).listenCount = s.listenCount := by
  unfold State.handToAnnunciation; split <;> rfl

@[simp] theorem State.handToAnnunciation_silenceTimer (o : StationId) : (s.handToAnnunciation o).silenceTimer = s.silenceTimer := by
  unfold State.handToAnnunciation; split <;> rfl

@[simp] theorem State.handToAnnunciation_assembler (o : StationId) : (s.handToAnnunciation o).assembler = s.assembler := by
  unfold State.handToAnnunciation; split <;> rfl

@[simp] theorem State.handToAnnunciation_framingErrors (o : StationId) : (s.handToAnnunciation o).framingErrors = s.framingErrors := by
  unfold State.handToAnnunciation; split <;> rfl

@[simp] theorem State.handToAnnunciation_monitors (o : StationId) : (s.handToAnnunciation o).monitors = s.monitors := by
  unfold State.handToAnnunciation; split <;> rfl

@[simp] theorem State.handToAnnunciation_table (o : StationId) : (s.handToAnnunciation o).table = s.table := by
  unfold State.handToAnnunciation; split <;> rfl

@[simp] theorem State.handToAnnunciation_queue (o : StationId) : (s.handToAnnunciation o).queue = s.queue := by
  unfold State.handToAnnunciation; split <;> rfl

@[simp] theorem State.handToAnnunciation_line (o : StationId) : (s.handToAnnunciation o).line = s.line := by
  unfold State.handToAnnunciation; split <;> rfl

@[simp] theorem State.handToAnnunciation_roster (o : StationId) : (s.handToAnnunciation o).roster = s.roster := by
  unfold State.handToAnnunciation; split <;> rfl

@[simp] theorem State.handToAnnunciation_port (o : StationId) : (s.handToAnnunciation o).port = s.port := by
  unfold State.handToAnnunciation; split <;> rfl

@[simp] theorem State.handToAnnunciation_feed (o : StationId) : (s.handToAnnunciation o).feed = s.feed := by
  unfold State.handToAnnunciation; split <;> rfl


/-! ### An entry created touches the table, the feed and the annunciation unit (R44, R48, R50). -/

@[simp] theorem State.addEntry_pending (e : Entry) : (s.addEntry e).pending = s.pending := by
  simp [State.addEntry]

@[simp] theorem State.addEntry_rst (e : Entry) : (s.addEntry e).rst = s.rst := by
  simp [State.addEntry]

@[simp] theorem State.addEntry_scsPin (e : Entry) : (s.addEntry e).scsPin = s.scsPin := by
  simp [State.addEntry]

@[simp] theorem State.addEntry_cfsPin (e : Entry) : (s.addEntry e).cfsPin = s.cfsPin := by
  simp [State.addEntry]
@[simp] theorem State.addEntry_grxAhead (e : Entry) : (s.addEntry e).grxAhead = s.grxAhead := by
  simp [State.addEntry]
@[simp] theorem State.addEntry_bitTimes (e : Entry) : (s.addEntry e).bitTimes = s.bitTimes := by
  simp [State.addEntry]

@[simp] theorem State.addEntry_id (e : Entry) : (s.addEntry e).id = s.id := by
  simp [State.addEntry]

@[simp] theorem State.addEntry_station (e : Entry) : (s.addEntry e).station = s.station := by
  simp [State.addEntry]

@[simp] theorem State.addEntry_cause (e : Entry) : (s.addEntry e).cause = s.cause := by
  simp [State.addEntry]

@[simp] theorem State.addEntry_isSealed (e : Entry) : (s.addEntry e).isSealed = s.isSealed := by
  simp [State.addEntry]

@[simp] theorem State.addEntry_image (e : Entry) : (s.addEntry e).image = s.image := by
  simp [State.addEntry]

@[simp] theorem State.addEntry_listenCount (e : Entry) : (s.addEntry e).listenCount = s.listenCount := by
  simp [State.addEntry]

@[simp] theorem State.addEntry_silenceTimer (e : Entry) : (s.addEntry e).silenceTimer = s.silenceTimer := by
  simp [State.addEntry]

@[simp] theorem State.addEntry_assembler (e : Entry) : (s.addEntry e).assembler = s.assembler := by
  simp [State.addEntry]

@[simp] theorem State.addEntry_framingErrors (e : Entry) : (s.addEntry e).framingErrors = s.framingErrors := by
  simp [State.addEntry]

@[simp] theorem State.addEntry_monitors (e : Entry) : (s.addEntry e).monitors = s.monitors := by
  simp [State.addEntry]

@[simp] theorem State.addEntry_queue (e : Entry) : (s.addEntry e).queue = s.queue := by
  simp [State.addEntry]

@[simp] theorem State.addEntry_line (e : Entry) : (s.addEntry e).line = s.line := by
  simp [State.addEntry]

@[simp] theorem State.addEntry_roster (e : Entry) : (s.addEntry e).roster = s.roster := by
  simp [State.addEntry]

@[simp] theorem State.addEntry_port (e : Entry) : (s.addEntry e).port = s.port := by
  simp [State.addEntry]


/-! ### An entry changed touches the table, the feed and the annunciation unit (R44, R48, R50). -/

@[simp] theorem State.changeEntry_pending (e : Entry) : (s.changeEntry e).pending = s.pending := by
  simp [State.changeEntry]

@[simp] theorem State.changeEntry_rst (e : Entry) : (s.changeEntry e).rst = s.rst := by
  simp [State.changeEntry]

@[simp] theorem State.changeEntry_scsPin (e : Entry) : (s.changeEntry e).scsPin = s.scsPin := by
  simp [State.changeEntry]

@[simp] theorem State.changeEntry_cfsPin (e : Entry) : (s.changeEntry e).cfsPin = s.cfsPin := by
  simp [State.changeEntry]
@[simp] theorem State.changeEntry_grxAhead (e : Entry) : (s.changeEntry e).grxAhead = s.grxAhead := by
  simp [State.changeEntry]
@[simp] theorem State.changeEntry_bitTimes (e : Entry) : (s.changeEntry e).bitTimes = s.bitTimes := by
  simp [State.changeEntry]

@[simp] theorem State.changeEntry_id (e : Entry) : (s.changeEntry e).id = s.id := by
  simp [State.changeEntry]

@[simp] theorem State.changeEntry_station (e : Entry) : (s.changeEntry e).station = s.station := by
  simp [State.changeEntry]

@[simp] theorem State.changeEntry_cause (e : Entry) : (s.changeEntry e).cause = s.cause := by
  simp [State.changeEntry]

@[simp] theorem State.changeEntry_isSealed (e : Entry) : (s.changeEntry e).isSealed = s.isSealed := by
  simp [State.changeEntry]

@[simp] theorem State.changeEntry_image (e : Entry) : (s.changeEntry e).image = s.image := by
  simp [State.changeEntry]

@[simp] theorem State.changeEntry_listenCount (e : Entry) : (s.changeEntry e).listenCount = s.listenCount := by
  simp [State.changeEntry]

@[simp] theorem State.changeEntry_silenceTimer (e : Entry) : (s.changeEntry e).silenceTimer = s.silenceTimer := by
  simp [State.changeEntry]

@[simp] theorem State.changeEntry_assembler (e : Entry) : (s.changeEntry e).assembler = s.assembler := by
  simp [State.changeEntry]

@[simp] theorem State.changeEntry_framingErrors (e : Entry) : (s.changeEntry e).framingErrors = s.framingErrors := by
  simp [State.changeEntry]

@[simp] theorem State.changeEntry_monitors (e : Entry) : (s.changeEntry e).monitors = s.monitors := by
  simp [State.changeEntry]

@[simp] theorem State.changeEntry_queue (e : Entry) : (s.changeEntry e).queue = s.queue := by
  simp [State.changeEntry]

@[simp] theorem State.changeEntry_line (e : Entry) : (s.changeEntry e).line = s.line := by
  simp [State.changeEntry]

@[simp] theorem State.changeEntry_roster (e : Entry) : (s.changeEntry e).roster = s.roster := by
  simp [State.changeEntry]

@[simp] theorem State.changeEntry_port (e : Entry) : (s.changeEntry e).port = s.port := by
  simp [State.changeEntry]


/-! ### An entry removed touches the table, the feed and the annunciation unit (R44, R48, R50). -/

@[simp] theorem State.removeEntry_pending (e : Entry) (l : Level) (q : Seq) (r : RemovalReason) (k : Option StationId) : (s.removeEntry e l q r k).pending = s.pending := by
  simp [State.removeEntry]

@[simp] theorem State.removeEntry_rst (e : Entry) (l : Level) (q : Seq) (r : RemovalReason) (k : Option StationId) : (s.removeEntry e l q r k).rst = s.rst := by
  simp [State.removeEntry]

@[simp] theorem State.removeEntry_scsPin (e : Entry) (l : Level) (q : Seq) (r : RemovalReason) (k : Option StationId) : (s.removeEntry e l q r k).scsPin = s.scsPin := by
  simp [State.removeEntry]

@[simp] theorem State.removeEntry_cfsPin (e : Entry) (l : Level) (q : Seq) (r : RemovalReason) (k : Option StationId) : (s.removeEntry e l q r k).cfsPin = s.cfsPin := by
  simp [State.removeEntry]
@[simp] theorem State.removeEntry_grxAhead (e : Entry) (l : Level) (q : Seq) (r : RemovalReason) (k : Option StationId) : (s.removeEntry e l q r k).grxAhead = s.grxAhead := by
  simp [State.removeEntry]
@[simp] theorem State.removeEntry_bitTimes (e : Entry) (l : Level) (q : Seq) (r : RemovalReason) (k : Option StationId) : (s.removeEntry e l q r k).bitTimes = s.bitTimes := by
  simp [State.removeEntry]

@[simp] theorem State.removeEntry_id (e : Entry) (l : Level) (q : Seq) (r : RemovalReason) (k : Option StationId) : (s.removeEntry e l q r k).id = s.id := by
  simp [State.removeEntry]

@[simp] theorem State.removeEntry_station (e : Entry) (l : Level) (q : Seq) (r : RemovalReason) (k : Option StationId) : (s.removeEntry e l q r k).station = s.station := by
  simp [State.removeEntry]

@[simp] theorem State.removeEntry_cause (e : Entry) (l : Level) (q : Seq) (r : RemovalReason) (k : Option StationId) : (s.removeEntry e l q r k).cause = s.cause := by
  simp [State.removeEntry]

@[simp] theorem State.removeEntry_isSealed (e : Entry) (l : Level) (q : Seq) (r : RemovalReason) (k : Option StationId) : (s.removeEntry e l q r k).isSealed = s.isSealed := by
  simp [State.removeEntry]

@[simp] theorem State.removeEntry_image (e : Entry) (l : Level) (q : Seq) (r : RemovalReason) (k : Option StationId) : (s.removeEntry e l q r k).image = s.image := by
  simp [State.removeEntry]

@[simp] theorem State.removeEntry_listenCount (e : Entry) (l : Level) (q : Seq) (r : RemovalReason) (k : Option StationId) : (s.removeEntry e l q r k).listenCount = s.listenCount := by
  simp [State.removeEntry]

@[simp] theorem State.removeEntry_silenceTimer (e : Entry) (l : Level) (q : Seq) (r : RemovalReason) (k : Option StationId) : (s.removeEntry e l q r k).silenceTimer = s.silenceTimer := by
  simp [State.removeEntry]

@[simp] theorem State.removeEntry_assembler (e : Entry) (l : Level) (q : Seq) (r : RemovalReason) (k : Option StationId) : (s.removeEntry e l q r k).assembler = s.assembler := by
  simp [State.removeEntry]

@[simp] theorem State.removeEntry_framingErrors (e : Entry) (l : Level) (q : Seq) (r : RemovalReason) (k : Option StationId) : (s.removeEntry e l q r k).framingErrors = s.framingErrors := by
  simp [State.removeEntry]

@[simp] theorem State.removeEntry_monitors (e : Entry) (l : Level) (q : Seq) (r : RemovalReason) (k : Option StationId) : (s.removeEntry e l q r k).monitors = s.monitors := by
  simp [State.removeEntry]

@[simp] theorem State.removeEntry_queue (e : Entry) (l : Level) (q : Seq) (r : RemovalReason) (k : Option StationId) : (s.removeEntry e l q r k).queue = s.queue := by
  simp [State.removeEntry]

@[simp] theorem State.removeEntry_line (e : Entry) (l : Level) (q : Seq) (r : RemovalReason) (k : Option StationId) : (s.removeEntry e l q r k).line = s.line := by
  simp [State.removeEntry]

@[simp] theorem State.removeEntry_roster (e : Entry) (l : Level) (q : Seq) (r : RemovalReason) (k : Option StationId) : (s.removeEntry e l q r k).roster = s.roster := by
  simp [State.removeEntry]

@[simp] theorem State.removeEntry_port (e : Entry) (l : Level) (q : Seq) (r : RemovalReason) (k : Option StationId) : (s.removeEntry e l q r k).port = s.port := by
  simp [State.removeEntry]


/-! ### An entry removed with reason CLEARED touches the same (R49). -/

@[simp] theorem State.clearEntry_pending (e : Entry) (r : Record) : (s.clearEntry e r).pending = s.pending := by
  simp [State.clearEntry]

@[simp] theorem State.clearEntry_rst (e : Entry) (r : Record) : (s.clearEntry e r).rst = s.rst := by
  simp [State.clearEntry]

@[simp] theorem State.clearEntry_scsPin (e : Entry) (r : Record) : (s.clearEntry e r).scsPin = s.scsPin := by
  simp [State.clearEntry]

@[simp] theorem State.clearEntry_cfsPin (e : Entry) (r : Record) : (s.clearEntry e r).cfsPin = s.cfsPin := by
  simp [State.clearEntry]
@[simp] theorem State.clearEntry_grxAhead (e : Entry) (r : Record) : (s.clearEntry e r).grxAhead = s.grxAhead := by
  simp [State.clearEntry]
@[simp] theorem State.clearEntry_bitTimes (e : Entry) (r : Record) : (s.clearEntry e r).bitTimes = s.bitTimes := by
  simp [State.clearEntry]

@[simp] theorem State.clearEntry_id (e : Entry) (r : Record) : (s.clearEntry e r).id = s.id := by
  simp [State.clearEntry]

@[simp] theorem State.clearEntry_station (e : Entry) (r : Record) : (s.clearEntry e r).station = s.station := by
  simp [State.clearEntry]

@[simp] theorem State.clearEntry_cause (e : Entry) (r : Record) : (s.clearEntry e r).cause = s.cause := by
  simp [State.clearEntry]

@[simp] theorem State.clearEntry_isSealed (e : Entry) (r : Record) : (s.clearEntry e r).isSealed = s.isSealed := by
  simp [State.clearEntry]

@[simp] theorem State.clearEntry_image (e : Entry) (r : Record) : (s.clearEntry e r).image = s.image := by
  simp [State.clearEntry]

@[simp] theorem State.clearEntry_listenCount (e : Entry) (r : Record) : (s.clearEntry e r).listenCount = s.listenCount := by
  simp [State.clearEntry]

@[simp] theorem State.clearEntry_silenceTimer (e : Entry) (r : Record) : (s.clearEntry e r).silenceTimer = s.silenceTimer := by
  simp [State.clearEntry]

@[simp] theorem State.clearEntry_assembler (e : Entry) (r : Record) : (s.clearEntry e r).assembler = s.assembler := by
  simp [State.clearEntry]

@[simp] theorem State.clearEntry_framingErrors (e : Entry) (r : Record) : (s.clearEntry e r).framingErrors = s.framingErrors := by
  simp [State.clearEntry]

@[simp] theorem State.clearEntry_monitors (e : Entry) (r : Record) : (s.clearEntry e r).monitors = s.monitors := by
  simp [State.clearEntry]

@[simp] theorem State.clearEntry_queue (e : Entry) (r : Record) : (s.clearEntry e r).queue = s.queue := by
  simp [State.clearEntry]

@[simp] theorem State.clearEntry_line (e : Entry) (r : Record) : (s.clearEntry e r).line = s.line := by
  simp [State.clearEntry]

@[simp] theorem State.clearEntry_roster (e : Entry) (r : Record) : (s.clearEntry e r).roster = s.roster := by
  simp [State.clearEntry]

@[simp] theorem State.clearEntry_port (e : Entry) (r : Record) : (s.clearEntry e r).port = s.port := by
  simp [State.clearEntry]


/-! ### ACK_SUPERSEDED touches the feed alone (R94). -/

@[simp] theorem State.writeSuperseded_pending (n : Notice) : (s.writeSuperseded n).pending = s.pending := by
  unfold State.writeSuperseded; split <;> rfl

@[simp] theorem State.writeSuperseded_rst (n : Notice) : (s.writeSuperseded n).rst = s.rst := by
  unfold State.writeSuperseded; split <;> rfl

@[simp] theorem State.writeSuperseded_scsPin (n : Notice) : (s.writeSuperseded n).scsPin = s.scsPin := by
  unfold State.writeSuperseded; split <;> rfl

@[simp] theorem State.writeSuperseded_cfsPin (n : Notice) : (s.writeSuperseded n).cfsPin = s.cfsPin := by
  unfold State.writeSuperseded; split <;> rfl
@[simp] theorem State.writeSuperseded_grxAhead (n : Notice) : (s.writeSuperseded n).grxAhead = s.grxAhead := by
  unfold State.writeSuperseded; split <;> rfl
@[simp] theorem State.writeSuperseded_bitTimes (n : Notice) : (s.writeSuperseded n).bitTimes = s.bitTimes := by
  unfold State.writeSuperseded; split <;> rfl

@[simp] theorem State.writeSuperseded_id (n : Notice) : (s.writeSuperseded n).id = s.id := by
  unfold State.writeSuperseded; split <;> rfl

@[simp] theorem State.writeSuperseded_station (n : Notice) : (s.writeSuperseded n).station = s.station := by
  unfold State.writeSuperseded; split <;> rfl

@[simp] theorem State.writeSuperseded_cause (n : Notice) : (s.writeSuperseded n).cause = s.cause := by
  unfold State.writeSuperseded; split <;> rfl

@[simp] theorem State.writeSuperseded_isSealed (n : Notice) : (s.writeSuperseded n).isSealed = s.isSealed := by
  unfold State.writeSuperseded; split <;> rfl

@[simp] theorem State.writeSuperseded_image (n : Notice) : (s.writeSuperseded n).image = s.image := by
  unfold State.writeSuperseded; split <;> rfl

@[simp] theorem State.writeSuperseded_listenCount (n : Notice) : (s.writeSuperseded n).listenCount = s.listenCount := by
  unfold State.writeSuperseded; split <;> rfl

@[simp] theorem State.writeSuperseded_silenceTimer (n : Notice) : (s.writeSuperseded n).silenceTimer = s.silenceTimer := by
  unfold State.writeSuperseded; split <;> rfl

@[simp] theorem State.writeSuperseded_assembler (n : Notice) : (s.writeSuperseded n).assembler = s.assembler := by
  unfold State.writeSuperseded; split <;> rfl

@[simp] theorem State.writeSuperseded_framingErrors (n : Notice) : (s.writeSuperseded n).framingErrors = s.framingErrors := by
  unfold State.writeSuperseded; split <;> rfl

@[simp] theorem State.writeSuperseded_monitors (n : Notice) : (s.writeSuperseded n).monitors = s.monitors := by
  unfold State.writeSuperseded; split <;> rfl

@[simp] theorem State.writeSuperseded_table (n : Notice) : (s.writeSuperseded n).table = s.table := by
  unfold State.writeSuperseded; split <;> rfl

@[simp] theorem State.writeSuperseded_queue (n : Notice) : (s.writeSuperseded n).queue = s.queue := by
  unfold State.writeSuperseded; split <;> rfl

@[simp] theorem State.writeSuperseded_line (n : Notice) : (s.writeSuperseded n).line = s.line := by
  unfold State.writeSuperseded; split <;> rfl

@[simp] theorem State.writeSuperseded_roster (n : Notice) : (s.writeSuperseded n).roster = s.roster := by
  unfold State.writeSuperseded; split <;> rfl

@[simp] theorem State.writeSuperseded_ann (n : Notice) : (s.writeSuperseded n).ann = s.ann := by
  unfold State.writeSuperseded; split <;> rfl

@[simp] theorem State.writeSuperseded_port (n : Notice) : (s.writeSuperseded n).port = s.port := by
  unfold State.writeSuperseded; split <;> rfl


/-! ### Staleness touches the queue and the feed (R93, R94). -/

@[simp] theorem State.makeStale_pending (o : StationId) (c : Channel) : (s.makeStale o c).pending = s.pending := by
  unfold State.makeStale; (repeat' split) <;> simp

@[simp] theorem State.makeStale_rst (o : StationId) (c : Channel) : (s.makeStale o c).rst = s.rst := by
  unfold State.makeStale; (repeat' split) <;> simp

@[simp] theorem State.makeStale_scsPin (o : StationId) (c : Channel) : (s.makeStale o c).scsPin = s.scsPin := by
  unfold State.makeStale; (repeat' split) <;> simp

@[simp] theorem State.makeStale_cfsPin (o : StationId) (c : Channel) : (s.makeStale o c).cfsPin = s.cfsPin := by
  unfold State.makeStale; (repeat' split) <;> simp
@[simp] theorem State.makeStale_grxAhead (o : StationId) (c : Channel) : (s.makeStale o c).grxAhead = s.grxAhead := by
  unfold State.makeStale; (repeat' split) <;> simp
@[simp] theorem State.makeStale_bitTimes (o : StationId) (c : Channel) : (s.makeStale o c).bitTimes = s.bitTimes := by
  unfold State.makeStale; (repeat' split) <;> simp

@[simp] theorem State.makeStale_id (o : StationId) (c : Channel) : (s.makeStale o c).id = s.id := by
  unfold State.makeStale; (repeat' split) <;> simp

@[simp] theorem State.makeStale_station (o : StationId) (c : Channel) : (s.makeStale o c).station = s.station := by
  unfold State.makeStale; (repeat' split) <;> simp

@[simp] theorem State.makeStale_cause (o : StationId) (c : Channel) : (s.makeStale o c).cause = s.cause := by
  unfold State.makeStale; (repeat' split) <;> simp

@[simp] theorem State.makeStale_isSealed (o : StationId) (c : Channel) : (s.makeStale o c).isSealed = s.isSealed := by
  unfold State.makeStale; (repeat' split) <;> simp

@[simp] theorem State.makeStale_image (o : StationId) (c : Channel) : (s.makeStale o c).image = s.image := by
  unfold State.makeStale; (repeat' split) <;> simp

@[simp] theorem State.makeStale_listenCount (o : StationId) (c : Channel) : (s.makeStale o c).listenCount = s.listenCount := by
  unfold State.makeStale; (repeat' split) <;> simp

@[simp] theorem State.makeStale_silenceTimer (o : StationId) (c : Channel) : (s.makeStale o c).silenceTimer = s.silenceTimer := by
  unfold State.makeStale; (repeat' split) <;> simp

@[simp] theorem State.makeStale_assembler (o : StationId) (c : Channel) : (s.makeStale o c).assembler = s.assembler := by
  unfold State.makeStale; (repeat' split) <;> simp

@[simp] theorem State.makeStale_framingErrors (o : StationId) (c : Channel) : (s.makeStale o c).framingErrors = s.framingErrors := by
  unfold State.makeStale; (repeat' split) <;> simp

@[simp] theorem State.makeStale_monitors (o : StationId) (c : Channel) : (s.makeStale o c).monitors = s.monitors := by
  unfold State.makeStale; (repeat' split) <;> simp

@[simp] theorem State.makeStale_table (o : StationId) (c : Channel) : (s.makeStale o c).table = s.table := by
  unfold State.makeStale; (repeat' split) <;> simp

@[simp] theorem State.makeStale_line (o : StationId) (c : Channel) : (s.makeStale o c).line = s.line := by
  unfold State.makeStale; (repeat' split) <;> simp

@[simp] theorem State.makeStale_roster (o : StationId) (c : Channel) : (s.makeStale o c).roster = s.roster := by
  unfold State.makeStale; (repeat' split) <;> simp

@[simp] theorem State.makeStale_ann (o : StationId) (c : Channel) : (s.makeStale o c).ann = s.ann := by
  unfold State.makeStale; (repeat' split) <;> simp

@[simp] theorem State.makeStale_port (o : StationId) (c : Channel) : (s.makeStale o c).port = s.port := by
  unfold State.makeStale; (repeat' split) <;> simp


/-! ### An acknowledgement passed on touches the monitors alone (R33). -/

@[simp] theorem State.passAck_pending (o : StationId) (c : Channel) (k : StationId) : (s.passAck o c k).pending = s.pending := by
  unfold State.passAck State.ackRecord; split <;> rfl

@[simp] theorem State.passAck_rst (o : StationId) (c : Channel) (k : StationId) : (s.passAck o c k).rst = s.rst := by
  unfold State.passAck State.ackRecord; split <;> rfl

@[simp] theorem State.passAck_scsPin (o : StationId) (c : Channel) (k : StationId) : (s.passAck o c k).scsPin = s.scsPin := by
  unfold State.passAck State.ackRecord; split <;> rfl

@[simp] theorem State.passAck_cfsPin (o : StationId) (c : Channel) (k : StationId) : (s.passAck o c k).cfsPin = s.cfsPin := by
  unfold State.passAck State.ackRecord; split <;> rfl
@[simp] theorem State.passAck_grxAhead (o : StationId) (c : Channel) (k : StationId) : (s.passAck o c k).grxAhead = s.grxAhead := by
  unfold State.passAck State.ackRecord; split <;> rfl
@[simp] theorem State.passAck_bitTimes (o : StationId) (c : Channel) (k : StationId) : (s.passAck o c k).bitTimes = s.bitTimes := by
  unfold State.passAck State.ackRecord; split <;> rfl

@[simp] theorem State.passAck_id (o : StationId) (c : Channel) (k : StationId) : (s.passAck o c k).id = s.id := by
  unfold State.passAck State.ackRecord; split <;> rfl

@[simp] theorem State.passAck_station (o : StationId) (c : Channel) (k : StationId) : (s.passAck o c k).station = s.station := by
  unfold State.passAck State.ackRecord; split <;> rfl

@[simp] theorem State.passAck_cause (o : StationId) (c : Channel) (k : StationId) : (s.passAck o c k).cause = s.cause := by
  unfold State.passAck State.ackRecord; split <;> rfl

@[simp] theorem State.passAck_isSealed (o : StationId) (c : Channel) (k : StationId) : (s.passAck o c k).isSealed = s.isSealed := by
  unfold State.passAck State.ackRecord; split <;> rfl

@[simp] theorem State.passAck_image (o : StationId) (c : Channel) (k : StationId) : (s.passAck o c k).image = s.image := by
  unfold State.passAck State.ackRecord; split <;> rfl

@[simp] theorem State.passAck_listenCount (o : StationId) (c : Channel) (k : StationId) : (s.passAck o c k).listenCount = s.listenCount := by
  unfold State.passAck State.ackRecord; split <;> rfl

@[simp] theorem State.passAck_silenceTimer (o : StationId) (c : Channel) (k : StationId) : (s.passAck o c k).silenceTimer = s.silenceTimer := by
  unfold State.passAck State.ackRecord; split <;> rfl

@[simp] theorem State.passAck_assembler (o : StationId) (c : Channel) (k : StationId) : (s.passAck o c k).assembler = s.assembler := by
  unfold State.passAck State.ackRecord; split <;> rfl

@[simp] theorem State.passAck_framingErrors (o : StationId) (c : Channel) (k : StationId) : (s.passAck o c k).framingErrors = s.framingErrors := by
  unfold State.passAck State.ackRecord; split <;> rfl

@[simp] theorem State.passAck_table (o : StationId) (c : Channel) (k : StationId) : (s.passAck o c k).table = s.table := by
  unfold State.passAck State.ackRecord; split <;> rfl

@[simp] theorem State.passAck_queue (o : StationId) (c : Channel) (k : StationId) : (s.passAck o c k).queue = s.queue := by
  unfold State.passAck State.ackRecord; split <;> rfl

@[simp] theorem State.passAck_line (o : StationId) (c : Channel) (k : StationId) : (s.passAck o c k).line = s.line := by
  unfold State.passAck State.ackRecord; split <;> rfl

@[simp] theorem State.passAck_roster (o : StationId) (c : Channel) (k : StationId) : (s.passAck o c k).roster = s.roster := by
  unfold State.passAck State.ackRecord; split <;> rfl

@[simp] theorem State.passAck_ann (o : StationId) (c : Channel) (k : StationId) : (s.passAck o c k).ann = s.ann := by
  unfold State.passAck State.ackRecord; split <;> rfl

@[simp] theorem State.passAck_port (o : StationId) (c : Channel) (k : StationId) : (s.passAck o c k).port = s.port := by
  unfold State.passAck State.ackRecord; split <;> rfl

@[simp] theorem State.passAck_feed (o : StationId) (c : Channel) (k : StationId) : (s.passAck o c k).feed = s.feed := by
  unfold State.passAck State.ackRecord; split <;> rfl


/-! ### An entry set ACTIVE_ACKED (R57). -/

@[simp] theorem State.setAcked_pending (e : Entry) (k : StationId) : (s.setAcked e k).pending = s.pending := by
  simp [State.setAcked]

@[simp] theorem State.setAcked_rst (e : Entry) (k : StationId) : (s.setAcked e k).rst = s.rst := by
  simp [State.setAcked]

@[simp] theorem State.setAcked_scsPin (e : Entry) (k : StationId) : (s.setAcked e k).scsPin = s.scsPin := by
  simp [State.setAcked]

@[simp] theorem State.setAcked_cfsPin (e : Entry) (k : StationId) : (s.setAcked e k).cfsPin = s.cfsPin := by
  simp [State.setAcked]
@[simp] theorem State.setAcked_grxAhead (e : Entry) (k : StationId) : (s.setAcked e k).grxAhead = s.grxAhead := by
  simp [State.setAcked]
@[simp] theorem State.setAcked_bitTimes (e : Entry) (k : StationId) : (s.setAcked e k).bitTimes = s.bitTimes := by
  simp [State.setAcked]

@[simp] theorem State.setAcked_id (e : Entry) (k : StationId) : (s.setAcked e k).id = s.id := by
  simp [State.setAcked]

@[simp] theorem State.setAcked_station (e : Entry) (k : StationId) : (s.setAcked e k).station = s.station := by
  simp [State.setAcked]

@[simp] theorem State.setAcked_cause (e : Entry) (k : StationId) : (s.setAcked e k).cause = s.cause := by
  simp [State.setAcked]

@[simp] theorem State.setAcked_isSealed (e : Entry) (k : StationId) : (s.setAcked e k).isSealed = s.isSealed := by
  simp [State.setAcked]

@[simp] theorem State.setAcked_image (e : Entry) (k : StationId) : (s.setAcked e k).image = s.image := by
  simp [State.setAcked]

@[simp] theorem State.setAcked_listenCount (e : Entry) (k : StationId) : (s.setAcked e k).listenCount = s.listenCount := by
  simp [State.setAcked]

@[simp] theorem State.setAcked_silenceTimer (e : Entry) (k : StationId) : (s.setAcked e k).silenceTimer = s.silenceTimer := by
  simp [State.setAcked]

@[simp] theorem State.setAcked_assembler (e : Entry) (k : StationId) : (s.setAcked e k).assembler = s.assembler := by
  simp [State.setAcked]

@[simp] theorem State.setAcked_framingErrors (e : Entry) (k : StationId) : (s.setAcked e k).framingErrors = s.framingErrors := by
  simp [State.setAcked]

@[simp] theorem State.setAcked_queue (e : Entry) (k : StationId) : (s.setAcked e k).queue = s.queue := by
  simp [State.setAcked]

@[simp] theorem State.setAcked_line (e : Entry) (k : StationId) : (s.setAcked e k).line = s.line := by
  simp [State.setAcked]

@[simp] theorem State.setAcked_roster (e : Entry) (k : StationId) : (s.setAcked e k).roster = s.roster := by
  simp [State.setAcked]

@[simp] theorem State.setAcked_port (e : Entry) (k : StationId) : (s.setAcked e k).port = s.port := by
  simp [State.setAcked]


/-! ### A CLEARED_UNACKED entry removed by an ACK (R57). -/

@[simp] theorem State.removeAcked_pending (e : Entry) (k : StationId) : (s.removeAcked e k).pending = s.pending := by
  unfold State.removeAcked; dsimp only; split <;> simp

@[simp] theorem State.removeAcked_rst (e : Entry) (k : StationId) : (s.removeAcked e k).rst = s.rst := by
  unfold State.removeAcked; dsimp only; split <;> simp

@[simp] theorem State.removeAcked_scsPin (e : Entry) (k : StationId) : (s.removeAcked e k).scsPin = s.scsPin := by
  unfold State.removeAcked; dsimp only; split <;> simp

@[simp] theorem State.removeAcked_cfsPin (e : Entry) (k : StationId) : (s.removeAcked e k).cfsPin = s.cfsPin := by
  unfold State.removeAcked; dsimp only; split <;> simp
@[simp] theorem State.removeAcked_grxAhead (e : Entry) (k : StationId) : (s.removeAcked e k).grxAhead = s.grxAhead := by
  unfold State.removeAcked; dsimp only; split <;> simp
@[simp] theorem State.removeAcked_bitTimes (e : Entry) (k : StationId) : (s.removeAcked e k).bitTimes = s.bitTimes := by
  unfold State.removeAcked; dsimp only; split <;> simp

@[simp] theorem State.removeAcked_id (e : Entry) (k : StationId) : (s.removeAcked e k).id = s.id := by
  unfold State.removeAcked; dsimp only; split <;> simp

@[simp] theorem State.removeAcked_station (e : Entry) (k : StationId) : (s.removeAcked e k).station = s.station := by
  unfold State.removeAcked; dsimp only; split <;> simp

@[simp] theorem State.removeAcked_cause (e : Entry) (k : StationId) : (s.removeAcked e k).cause = s.cause := by
  unfold State.removeAcked; dsimp only; split <;> simp

@[simp] theorem State.removeAcked_isSealed (e : Entry) (k : StationId) : (s.removeAcked e k).isSealed = s.isSealed := by
  unfold State.removeAcked; dsimp only; split <;> simp

@[simp] theorem State.removeAcked_image (e : Entry) (k : StationId) : (s.removeAcked e k).image = s.image := by
  unfold State.removeAcked; dsimp only; split <;> simp

@[simp] theorem State.removeAcked_listenCount (e : Entry) (k : StationId) : (s.removeAcked e k).listenCount = s.listenCount := by
  unfold State.removeAcked; dsimp only; split <;> simp

@[simp] theorem State.removeAcked_silenceTimer (e : Entry) (k : StationId) : (s.removeAcked e k).silenceTimer = s.silenceTimer := by
  unfold State.removeAcked; dsimp only; split <;> simp

@[simp] theorem State.removeAcked_assembler (e : Entry) (k : StationId) : (s.removeAcked e k).assembler = s.assembler := by
  unfold State.removeAcked; dsimp only; split <;> simp

@[simp] theorem State.removeAcked_framingErrors (e : Entry) (k : StationId) : (s.removeAcked e k).framingErrors = s.framingErrors := by
  unfold State.removeAcked; dsimp only; split <;> simp

@[simp] theorem State.removeAcked_line (e : Entry) (k : StationId) : (s.removeAcked e k).line = s.line := by
  unfold State.removeAcked; dsimp only; split <;> simp

@[simp] theorem State.removeAcked_roster (e : Entry) (k : StationId) : (s.removeAcked e k).roster = s.roster := by
  unfold State.removeAcked; dsimp only; split <;> simp

@[simp] theorem State.removeAcked_port (e : Entry) (k : StationId) : (s.removeAcked e k).port = s.port := by
  unfold State.removeAcked; dsimp only; split <;> simp


/-! ### An ACK applied (R57). -/

@[simp] theorem State.applyAck_pending (k t : StationId) (c : Channel) (q : Seq) : (s.applyAck k t c q).pending = s.pending := by
  unfold State.applyAck; (repeat' split) <;> simp

@[simp] theorem State.applyAck_rst (k t : StationId) (c : Channel) (q : Seq) : (s.applyAck k t c q).rst = s.rst := by
  unfold State.applyAck; (repeat' split) <;> simp

@[simp] theorem State.applyAck_scsPin (k t : StationId) (c : Channel) (q : Seq) : (s.applyAck k t c q).scsPin = s.scsPin := by
  unfold State.applyAck; (repeat' split) <;> simp

@[simp] theorem State.applyAck_cfsPin (k t : StationId) (c : Channel) (q : Seq) : (s.applyAck k t c q).cfsPin = s.cfsPin := by
  unfold State.applyAck; (repeat' split) <;> simp
@[simp] theorem State.applyAck_grxAhead (k t : StationId) (c : Channel) (q : Seq) : (s.applyAck k t c q).grxAhead = s.grxAhead := by
  unfold State.applyAck; (repeat' split) <;> simp
@[simp] theorem State.applyAck_bitTimes (k t : StationId) (c : Channel) (q : Seq) : (s.applyAck k t c q).bitTimes = s.bitTimes := by
  unfold State.applyAck; (repeat' split) <;> simp

@[simp] theorem State.applyAck_id (k t : StationId) (c : Channel) (q : Seq) : (s.applyAck k t c q).id = s.id := by
  unfold State.applyAck; (repeat' split) <;> simp

@[simp] theorem State.applyAck_station (k t : StationId) (c : Channel) (q : Seq) : (s.applyAck k t c q).station = s.station := by
  unfold State.applyAck; (repeat' split) <;> simp

@[simp] theorem State.applyAck_cause (k t : StationId) (c : Channel) (q : Seq) : (s.applyAck k t c q).cause = s.cause := by
  unfold State.applyAck; (repeat' split) <;> simp

@[simp] theorem State.applyAck_isSealed (k t : StationId) (c : Channel) (q : Seq) : (s.applyAck k t c q).isSealed = s.isSealed := by
  unfold State.applyAck; (repeat' split) <;> simp

@[simp] theorem State.applyAck_image (k t : StationId) (c : Channel) (q : Seq) : (s.applyAck k t c q).image = s.image := by
  unfold State.applyAck; (repeat' split) <;> simp

@[simp] theorem State.applyAck_listenCount (k t : StationId) (c : Channel) (q : Seq) : (s.applyAck k t c q).listenCount = s.listenCount := by
  unfold State.applyAck; (repeat' split) <;> simp

@[simp] theorem State.applyAck_silenceTimer (k t : StationId) (c : Channel) (q : Seq) : (s.applyAck k t c q).silenceTimer = s.silenceTimer := by
  unfold State.applyAck; (repeat' split) <;> simp

@[simp] theorem State.applyAck_assembler (k t : StationId) (c : Channel) (q : Seq) : (s.applyAck k t c q).assembler = s.assembler := by
  unfold State.applyAck; (repeat' split) <;> simp

@[simp] theorem State.applyAck_framingErrors (k t : StationId) (c : Channel) (q : Seq) : (s.applyAck k t c q).framingErrors = s.framingErrors := by
  unfold State.applyAck; (repeat' split) <;> simp

@[simp] theorem State.applyAck_line (k t : StationId) (c : Channel) (q : Seq) : (s.applyAck k t c q).line = s.line := by
  unfold State.applyAck; (repeat' split) <;> simp

@[simp] theorem State.applyAck_roster (k t : StationId) (c : Channel) (q : Seq) : (s.applyAck k t c q).roster = s.roster := by
  unfold State.applyAck; (repeat' split) <;> simp

@[simp] theorem State.applyAck_port (k t : StationId) (c : Channel) (q : Seq) : (s.applyAck k t c q).port = s.port := by
  unfold State.applyAck; (repeat' split) <;> simp


/-! ### A victim evicted (R62). -/

@[simp] theorem State.evict_pending (e : Entry) : (s.evict e).pending = s.pending := by
  simp [State.evict]

@[simp] theorem State.evict_rst (e : Entry) : (s.evict e).rst = s.rst := by
  simp [State.evict]

@[simp] theorem State.evict_scsPin (e : Entry) : (s.evict e).scsPin = s.scsPin := by
  simp [State.evict]

@[simp] theorem State.evict_cfsPin (e : Entry) : (s.evict e).cfsPin = s.cfsPin := by
  simp [State.evict]
@[simp] theorem State.evict_grxAhead (e : Entry) : (s.evict e).grxAhead = s.grxAhead := by
  simp [State.evict]
@[simp] theorem State.evict_bitTimes (e : Entry) : (s.evict e).bitTimes = s.bitTimes := by
  simp [State.evict]

@[simp] theorem State.evict_id (e : Entry) : (s.evict e).id = s.id := by
  simp [State.evict]

@[simp] theorem State.evict_station (e : Entry) : (s.evict e).station = s.station := by
  simp [State.evict]

@[simp] theorem State.evict_cause (e : Entry) : (s.evict e).cause = s.cause := by
  simp [State.evict]

@[simp] theorem State.evict_isSealed (e : Entry) : (s.evict e).isSealed = s.isSealed := by
  simp [State.evict]

@[simp] theorem State.evict_image (e : Entry) : (s.evict e).image = s.image := by
  simp [State.evict]

@[simp] theorem State.evict_listenCount (e : Entry) : (s.evict e).listenCount = s.listenCount := by
  simp [State.evict]

@[simp] theorem State.evict_silenceTimer (e : Entry) : (s.evict e).silenceTimer = s.silenceTimer := by
  simp [State.evict]

@[simp] theorem State.evict_assembler (e : Entry) : (s.evict e).assembler = s.assembler := by
  simp [State.evict]

@[simp] theorem State.evict_framingErrors (e : Entry) : (s.evict e).framingErrors = s.framingErrors := by
  simp [State.evict]

@[simp] theorem State.evict_monitors (e : Entry) : (s.evict e).monitors = s.monitors := by
  simp [State.evict]

@[simp] theorem State.evict_queue (e : Entry) : (s.evict e).queue = s.queue := by
  simp [State.evict]

@[simp] theorem State.evict_line (e : Entry) : (s.evict e).line = s.line := by
  simp [State.evict]

@[simp] theorem State.evict_roster (e : Entry) : (s.evict e).roster = s.roster := by
  simp [State.evict]

@[simp] theorem State.evict_ann (e : Entry) : (s.evict e).ann = s.ann := by
  simp [State.evict]

@[simp] theorem State.evict_port (e : Entry) : (s.evict e).port = s.port := by
  simp [State.evict]


/-! ### A newcomer dropped (R62). -/

@[simp] theorem State.dropNewcomer_pending (e : Entry) : (s.dropNewcomer e).pending = s.pending := by
  simp [State.dropNewcomer]

@[simp] theorem State.dropNewcomer_rst (e : Entry) : (s.dropNewcomer e).rst = s.rst := by
  simp [State.dropNewcomer]

@[simp] theorem State.dropNewcomer_scsPin (e : Entry) : (s.dropNewcomer e).scsPin = s.scsPin := by
  simp [State.dropNewcomer]

@[simp] theorem State.dropNewcomer_cfsPin (e : Entry) : (s.dropNewcomer e).cfsPin = s.cfsPin := by
  simp [State.dropNewcomer]
@[simp] theorem State.dropNewcomer_grxAhead (e : Entry) : (s.dropNewcomer e).grxAhead = s.grxAhead := by
  simp [State.dropNewcomer]
@[simp] theorem State.dropNewcomer_bitTimes (e : Entry) : (s.dropNewcomer e).bitTimes = s.bitTimes := by
  simp [State.dropNewcomer]

@[simp] theorem State.dropNewcomer_id (e : Entry) : (s.dropNewcomer e).id = s.id := by
  simp [State.dropNewcomer]

@[simp] theorem State.dropNewcomer_station (e : Entry) : (s.dropNewcomer e).station = s.station := by
  simp [State.dropNewcomer]

@[simp] theorem State.dropNewcomer_cause (e : Entry) : (s.dropNewcomer e).cause = s.cause := by
  simp [State.dropNewcomer]

@[simp] theorem State.dropNewcomer_isSealed (e : Entry) : (s.dropNewcomer e).isSealed = s.isSealed := by
  simp [State.dropNewcomer]

@[simp] theorem State.dropNewcomer_image (e : Entry) : (s.dropNewcomer e).image = s.image := by
  simp [State.dropNewcomer]

@[simp] theorem State.dropNewcomer_listenCount (e : Entry) : (s.dropNewcomer e).listenCount = s.listenCount := by
  simp [State.dropNewcomer]

@[simp] theorem State.dropNewcomer_silenceTimer (e : Entry) : (s.dropNewcomer e).silenceTimer = s.silenceTimer := by
  simp [State.dropNewcomer]

@[simp] theorem State.dropNewcomer_assembler (e : Entry) : (s.dropNewcomer e).assembler = s.assembler := by
  simp [State.dropNewcomer]

@[simp] theorem State.dropNewcomer_framingErrors (e : Entry) : (s.dropNewcomer e).framingErrors = s.framingErrors := by
  simp [State.dropNewcomer]

@[simp] theorem State.dropNewcomer_monitors (e : Entry) : (s.dropNewcomer e).monitors = s.monitors := by
  simp [State.dropNewcomer]

@[simp] theorem State.dropNewcomer_queue (e : Entry) : (s.dropNewcomer e).queue = s.queue := by
  simp [State.dropNewcomer]

@[simp] theorem State.dropNewcomer_line (e : Entry) : (s.dropNewcomer e).line = s.line := by
  simp [State.dropNewcomer]

@[simp] theorem State.dropNewcomer_roster (e : Entry) : (s.dropNewcomer e).roster = s.roster := by
  simp [State.dropNewcomer]

@[simp] theorem State.dropNewcomer_ann (e : Entry) : (s.dropNewcomer e).ann = s.ann := by
  simp [State.dropNewcomer]

@[simp] theorem State.dropNewcomer_port (e : Entry) : (s.dropNewcomer e).port = s.port := by
  simp [State.dropNewcomer]


/-! ### The admission test (R61, R62). -/

@[simp] theorem State.admitNewcomer_pending (e : Entry) : (s.admitNewcomer e).pending = s.pending := by
  unfold State.admitNewcomer; (repeat' split) <;> simp

@[simp] theorem State.admitNewcomer_rst (e : Entry) : (s.admitNewcomer e).rst = s.rst := by
  unfold State.admitNewcomer; (repeat' split) <;> simp

@[simp] theorem State.admitNewcomer_scsPin (e : Entry) : (s.admitNewcomer e).scsPin = s.scsPin := by
  unfold State.admitNewcomer; (repeat' split) <;> simp

@[simp] theorem State.admitNewcomer_cfsPin (e : Entry) : (s.admitNewcomer e).cfsPin = s.cfsPin := by
  unfold State.admitNewcomer; (repeat' split) <;> simp
@[simp] theorem State.admitNewcomer_grxAhead (e : Entry) : (s.admitNewcomer e).grxAhead = s.grxAhead := by
  unfold State.admitNewcomer; (repeat' split) <;> simp
@[simp] theorem State.admitNewcomer_bitTimes (e : Entry) : (s.admitNewcomer e).bitTimes = s.bitTimes := by
  unfold State.admitNewcomer; (repeat' split) <;> simp

@[simp] theorem State.admitNewcomer_id (e : Entry) : (s.admitNewcomer e).id = s.id := by
  unfold State.admitNewcomer; (repeat' split) <;> simp

@[simp] theorem State.admitNewcomer_station (e : Entry) : (s.admitNewcomer e).station = s.station := by
  unfold State.admitNewcomer; (repeat' split) <;> simp

@[simp] theorem State.admitNewcomer_cause (e : Entry) : (s.admitNewcomer e).cause = s.cause := by
  unfold State.admitNewcomer; (repeat' split) <;> simp

@[simp] theorem State.admitNewcomer_isSealed (e : Entry) : (s.admitNewcomer e).isSealed = s.isSealed := by
  unfold State.admitNewcomer; (repeat' split) <;> simp

@[simp] theorem State.admitNewcomer_image (e : Entry) : (s.admitNewcomer e).image = s.image := by
  unfold State.admitNewcomer; (repeat' split) <;> simp

@[simp] theorem State.admitNewcomer_listenCount (e : Entry) : (s.admitNewcomer e).listenCount = s.listenCount := by
  unfold State.admitNewcomer; (repeat' split) <;> simp

@[simp] theorem State.admitNewcomer_silenceTimer (e : Entry) : (s.admitNewcomer e).silenceTimer = s.silenceTimer := by
  unfold State.admitNewcomer; (repeat' split) <;> simp

@[simp] theorem State.admitNewcomer_assembler (e : Entry) : (s.admitNewcomer e).assembler = s.assembler := by
  unfold State.admitNewcomer; (repeat' split) <;> simp

@[simp] theorem State.admitNewcomer_framingErrors (e : Entry) : (s.admitNewcomer e).framingErrors = s.framingErrors := by
  unfold State.admitNewcomer; (repeat' split) <;> simp

@[simp] theorem State.admitNewcomer_monitors (e : Entry) : (s.admitNewcomer e).monitors = s.monitors := by
  unfold State.admitNewcomer; (repeat' split) <;> simp

@[simp] theorem State.admitNewcomer_line (e : Entry) : (s.admitNewcomer e).line = s.line := by
  unfold State.admitNewcomer; (repeat' split) <;> simp

@[simp] theorem State.admitNewcomer_roster (e : Entry) : (s.admitNewcomer e).roster = s.roster := by
  unfold State.admitNewcomer; (repeat' split) <;> simp

@[simp] theorem State.admitNewcomer_port (e : Entry) : (s.admitNewcomer e).port = s.port := by
  unfold State.admitNewcomer; (repeat' split) <;> simp


/-! ### A remote entry created, subject to room (R43). -/

@[simp] theorem State.createRemote_pending (o : StationId) (c : Channel) (r : Record) : (s.createRemote o c r).pending = s.pending := by
  unfold State.createRemote; dsimp only; split <;> simp

@[simp] theorem State.createRemote_rst (o : StationId) (c : Channel) (r : Record) : (s.createRemote o c r).rst = s.rst := by
  unfold State.createRemote; dsimp only; split <;> simp

@[simp] theorem State.createRemote_scsPin (o : StationId) (c : Channel) (r : Record) : (s.createRemote o c r).scsPin = s.scsPin := by
  unfold State.createRemote; dsimp only; split <;> simp

@[simp] theorem State.createRemote_cfsPin (o : StationId) (c : Channel) (r : Record) : (s.createRemote o c r).cfsPin = s.cfsPin := by
  unfold State.createRemote; dsimp only; split <;> simp
@[simp] theorem State.createRemote_grxAhead (o : StationId) (c : Channel) (r : Record) : (s.createRemote o c r).grxAhead = s.grxAhead := by
  unfold State.createRemote; dsimp only; split <;> simp
@[simp] theorem State.createRemote_bitTimes (o : StationId) (c : Channel) (r : Record) : (s.createRemote o c r).bitTimes = s.bitTimes := by
  unfold State.createRemote; dsimp only; split <;> simp

@[simp] theorem State.createRemote_id (o : StationId) (c : Channel) (r : Record) : (s.createRemote o c r).id = s.id := by
  unfold State.createRemote; dsimp only; split <;> simp

@[simp] theorem State.createRemote_station (o : StationId) (c : Channel) (r : Record) : (s.createRemote o c r).station = s.station := by
  unfold State.createRemote; dsimp only; split <;> simp

@[simp] theorem State.createRemote_cause (o : StationId) (c : Channel) (r : Record) : (s.createRemote o c r).cause = s.cause := by
  unfold State.createRemote; dsimp only; split <;> simp

@[simp] theorem State.createRemote_isSealed (o : StationId) (c : Channel) (r : Record) : (s.createRemote o c r).isSealed = s.isSealed := by
  unfold State.createRemote; dsimp only; split <;> simp

@[simp] theorem State.createRemote_image (o : StationId) (c : Channel) (r : Record) : (s.createRemote o c r).image = s.image := by
  unfold State.createRemote; dsimp only; split <;> simp

@[simp] theorem State.createRemote_listenCount (o : StationId) (c : Channel) (r : Record) : (s.createRemote o c r).listenCount = s.listenCount := by
  unfold State.createRemote; dsimp only; split <;> simp

@[simp] theorem State.createRemote_silenceTimer (o : StationId) (c : Channel) (r : Record) : (s.createRemote o c r).silenceTimer = s.silenceTimer := by
  unfold State.createRemote; dsimp only; split <;> simp

@[simp] theorem State.createRemote_assembler (o : StationId) (c : Channel) (r : Record) : (s.createRemote o c r).assembler = s.assembler := by
  unfold State.createRemote; dsimp only; split <;> simp

@[simp] theorem State.createRemote_framingErrors (o : StationId) (c : Channel) (r : Record) : (s.createRemote o c r).framingErrors = s.framingErrors := by
  unfold State.createRemote; dsimp only; split <;> simp

@[simp] theorem State.createRemote_monitors (o : StationId) (c : Channel) (r : Record) : (s.createRemote o c r).monitors = s.monitors := by
  unfold State.createRemote; dsimp only; split <;> simp

@[simp] theorem State.createRemote_line (o : StationId) (c : Channel) (r : Record) : (s.createRemote o c r).line = s.line := by
  unfold State.createRemote; dsimp only; split <;> simp

@[simp] theorem State.createRemote_roster (o : StationId) (c : Channel) (r : Record) : (s.createRemote o c r).roster = s.roster := by
  unfold State.createRemote; dsimp only; split <;> simp

@[simp] theorem State.createRemote_port (o : StationId) (c : Channel) (r : Record) : (s.createRemote o c r).port = s.port := by
  unfold State.createRemote; dsimp only; split <;> simp


/-! ### An entry overwritten from a newer frame (R54). -/

@[simp] theorem State.overwriteEntry_pending (e : Entry) (r : Record) : (s.overwriteEntry e r).pending = s.pending := by
  simp [State.overwriteEntry]

@[simp] theorem State.overwriteEntry_rst (e : Entry) (r : Record) : (s.overwriteEntry e r).rst = s.rst := by
  simp [State.overwriteEntry]

@[simp] theorem State.overwriteEntry_scsPin (e : Entry) (r : Record) : (s.overwriteEntry e r).scsPin = s.scsPin := by
  simp [State.overwriteEntry]

@[simp] theorem State.overwriteEntry_cfsPin (e : Entry) (r : Record) : (s.overwriteEntry e r).cfsPin = s.cfsPin := by
  simp [State.overwriteEntry]
@[simp] theorem State.overwriteEntry_grxAhead (e : Entry) (r : Record) : (s.overwriteEntry e r).grxAhead = s.grxAhead := by
  simp [State.overwriteEntry]
@[simp] theorem State.overwriteEntry_bitTimes (e : Entry) (r : Record) : (s.overwriteEntry e r).bitTimes = s.bitTimes := by
  simp [State.overwriteEntry]

@[simp] theorem State.overwriteEntry_id (e : Entry) (r : Record) : (s.overwriteEntry e r).id = s.id := by
  simp [State.overwriteEntry]

@[simp] theorem State.overwriteEntry_station (e : Entry) (r : Record) : (s.overwriteEntry e r).station = s.station := by
  simp [State.overwriteEntry]

@[simp] theorem State.overwriteEntry_cause (e : Entry) (r : Record) : (s.overwriteEntry e r).cause = s.cause := by
  simp [State.overwriteEntry]

@[simp] theorem State.overwriteEntry_isSealed (e : Entry) (r : Record) : (s.overwriteEntry e r).isSealed = s.isSealed := by
  simp [State.overwriteEntry]

@[simp] theorem State.overwriteEntry_image (e : Entry) (r : Record) : (s.overwriteEntry e r).image = s.image := by
  simp [State.overwriteEntry]

@[simp] theorem State.overwriteEntry_listenCount (e : Entry) (r : Record) : (s.overwriteEntry e r).listenCount = s.listenCount := by
  simp [State.overwriteEntry]

@[simp] theorem State.overwriteEntry_silenceTimer (e : Entry) (r : Record) : (s.overwriteEntry e r).silenceTimer = s.silenceTimer := by
  simp [State.overwriteEntry]

@[simp] theorem State.overwriteEntry_assembler (e : Entry) (r : Record) : (s.overwriteEntry e r).assembler = s.assembler := by
  simp [State.overwriteEntry]

@[simp] theorem State.overwriteEntry_framingErrors (e : Entry) (r : Record) : (s.overwriteEntry e r).framingErrors = s.framingErrors := by
  simp [State.overwriteEntry]

@[simp] theorem State.overwriteEntry_monitors (e : Entry) (r : Record) : (s.overwriteEntry e r).monitors = s.monitors := by
  simp [State.overwriteEntry]

@[simp] theorem State.overwriteEntry_line (e : Entry) (r : Record) : (s.overwriteEntry e r).line = s.line := by
  simp [State.overwriteEntry]

@[simp] theorem State.overwriteEntry_roster (e : Entry) (r : Record) : (s.overwriteEntry e r).roster = s.roster := by
  simp [State.overwriteEntry]

@[simp] theorem State.overwriteEntry_port (e : Entry) (r : Record) : (s.overwriteEntry e r).port = s.port := by
  simp [State.overwriteEntry]


/-! ### A RAISE applied (R54). -/

@[simp] theorem State.applyRaise_pending (o : StationId) (c : Channel) (r : Record) : (s.applyRaise o c r).pending = s.pending := by
  unfold State.applyRaise; (repeat' split) <;> simp

@[simp] theorem State.applyRaise_rst (o : StationId) (c : Channel) (r : Record) : (s.applyRaise o c r).rst = s.rst := by
  unfold State.applyRaise; (repeat' split) <;> simp

@[simp] theorem State.applyRaise_scsPin (o : StationId) (c : Channel) (r : Record) : (s.applyRaise o c r).scsPin = s.scsPin := by
  unfold State.applyRaise; (repeat' split) <;> simp

@[simp] theorem State.applyRaise_cfsPin (o : StationId) (c : Channel) (r : Record) : (s.applyRaise o c r).cfsPin = s.cfsPin := by
  unfold State.applyRaise; (repeat' split) <;> simp
@[simp] theorem State.applyRaise_grxAhead (o : StationId) (c : Channel) (r : Record) : (s.applyRaise o c r).grxAhead = s.grxAhead := by
  unfold State.applyRaise; (repeat' split) <;> simp
@[simp] theorem State.applyRaise_bitTimes (o : StationId) (c : Channel) (r : Record) : (s.applyRaise o c r).bitTimes = s.bitTimes := by
  unfold State.applyRaise; (repeat' split) <;> simp

@[simp] theorem State.applyRaise_id (o : StationId) (c : Channel) (r : Record) : (s.applyRaise o c r).id = s.id := by
  unfold State.applyRaise; (repeat' split) <;> simp

@[simp] theorem State.applyRaise_station (o : StationId) (c : Channel) (r : Record) : (s.applyRaise o c r).station = s.station := by
  unfold State.applyRaise; (repeat' split) <;> simp

@[simp] theorem State.applyRaise_cause (o : StationId) (c : Channel) (r : Record) : (s.applyRaise o c r).cause = s.cause := by
  unfold State.applyRaise; (repeat' split) <;> simp

@[simp] theorem State.applyRaise_isSealed (o : StationId) (c : Channel) (r : Record) : (s.applyRaise o c r).isSealed = s.isSealed := by
  unfold State.applyRaise; (repeat' split) <;> simp

@[simp] theorem State.applyRaise_image (o : StationId) (c : Channel) (r : Record) : (s.applyRaise o c r).image = s.image := by
  unfold State.applyRaise; (repeat' split) <;> simp

@[simp] theorem State.applyRaise_listenCount (o : StationId) (c : Channel) (r : Record) : (s.applyRaise o c r).listenCount = s.listenCount := by
  unfold State.applyRaise; (repeat' split) <;> simp

@[simp] theorem State.applyRaise_silenceTimer (o : StationId) (c : Channel) (r : Record) : (s.applyRaise o c r).silenceTimer = s.silenceTimer := by
  unfold State.applyRaise; (repeat' split) <;> simp

@[simp] theorem State.applyRaise_assembler (o : StationId) (c : Channel) (r : Record) : (s.applyRaise o c r).assembler = s.assembler := by
  unfold State.applyRaise; (repeat' split) <;> simp

@[simp] theorem State.applyRaise_framingErrors (o : StationId) (c : Channel) (r : Record) : (s.applyRaise o c r).framingErrors = s.framingErrors := by
  unfold State.applyRaise; (repeat' split) <;> simp

@[simp] theorem State.applyRaise_monitors (o : StationId) (c : Channel) (r : Record) : (s.applyRaise o c r).monitors = s.monitors := by
  unfold State.applyRaise; (repeat' split) <;> simp

@[simp] theorem State.applyRaise_line (o : StationId) (c : Channel) (r : Record) : (s.applyRaise o c r).line = s.line := by
  unfold State.applyRaise; (repeat' split) <;> simp

@[simp] theorem State.applyRaise_roster (o : StationId) (c : Channel) (r : Record) : (s.applyRaise o c r).roster = s.roster := by
  unfold State.applyRaise; (repeat' split) <;> simp

@[simp] theorem State.applyRaise_port (o : StationId) (c : Channel) (r : Record) : (s.applyRaise o c r).port = s.port := by
  unfold State.applyRaise; (repeat' split) <;> simp


/-! ### A CLEAR applied (R55). -/

@[simp] theorem State.applyClear_pending (o : StationId) (c : Channel) (r : Record) : (s.applyClear o c r).pending = s.pending := by
  unfold State.applyClear; (repeat' split) <;> simp

@[simp] theorem State.applyClear_rst (o : StationId) (c : Channel) (r : Record) : (s.applyClear o c r).rst = s.rst := by
  unfold State.applyClear; (repeat' split) <;> simp

@[simp] theorem State.applyClear_scsPin (o : StationId) (c : Channel) (r : Record) : (s.applyClear o c r).scsPin = s.scsPin := by
  unfold State.applyClear; (repeat' split) <;> simp

@[simp] theorem State.applyClear_cfsPin (o : StationId) (c : Channel) (r : Record) : (s.applyClear o c r).cfsPin = s.cfsPin := by
  unfold State.applyClear; (repeat' split) <;> simp
@[simp] theorem State.applyClear_grxAhead (o : StationId) (c : Channel) (r : Record) : (s.applyClear o c r).grxAhead = s.grxAhead := by
  unfold State.applyClear; (repeat' split) <;> simp
@[simp] theorem State.applyClear_bitTimes (o : StationId) (c : Channel) (r : Record) : (s.applyClear o c r).bitTimes = s.bitTimes := by
  unfold State.applyClear; (repeat' split) <;> simp

@[simp] theorem State.applyClear_id (o : StationId) (c : Channel) (r : Record) : (s.applyClear o c r).id = s.id := by
  unfold State.applyClear; (repeat' split) <;> simp

@[simp] theorem State.applyClear_station (o : StationId) (c : Channel) (r : Record) : (s.applyClear o c r).station = s.station := by
  unfold State.applyClear; (repeat' split) <;> simp

@[simp] theorem State.applyClear_cause (o : StationId) (c : Channel) (r : Record) : (s.applyClear o c r).cause = s.cause := by
  unfold State.applyClear; (repeat' split) <;> simp

@[simp] theorem State.applyClear_isSealed (o : StationId) (c : Channel) (r : Record) : (s.applyClear o c r).isSealed = s.isSealed := by
  unfold State.applyClear; (repeat' split) <;> simp

@[simp] theorem State.applyClear_image (o : StationId) (c : Channel) (r : Record) : (s.applyClear o c r).image = s.image := by
  unfold State.applyClear; (repeat' split) <;> simp

@[simp] theorem State.applyClear_listenCount (o : StationId) (c : Channel) (r : Record) : (s.applyClear o c r).listenCount = s.listenCount := by
  unfold State.applyClear; (repeat' split) <;> simp

@[simp] theorem State.applyClear_silenceTimer (o : StationId) (c : Channel) (r : Record) : (s.applyClear o c r).silenceTimer = s.silenceTimer := by
  unfold State.applyClear; (repeat' split) <;> simp

@[simp] theorem State.applyClear_assembler (o : StationId) (c : Channel) (r : Record) : (s.applyClear o c r).assembler = s.assembler := by
  unfold State.applyClear; (repeat' split) <;> simp

@[simp] theorem State.applyClear_framingErrors (o : StationId) (c : Channel) (r : Record) : (s.applyClear o c r).framingErrors = s.framingErrors := by
  unfold State.applyClear; (repeat' split) <;> simp

@[simp] theorem State.applyClear_monitors (o : StationId) (c : Channel) (r : Record) : (s.applyClear o c r).monitors = s.monitors := by
  unfold State.applyClear; (repeat' split) <;> simp

@[simp] theorem State.applyClear_line (o : StationId) (c : Channel) (r : Record) : (s.applyClear o c r).line = s.line := by
  unfold State.applyClear; (repeat' split) <;> simp

@[simp] theorem State.applyClear_roster (o : StationId) (c : Channel) (r : Record) : (s.applyClear o c r).roster = s.roster := by
  unfold State.applyClear; (repeat' split) <;> simp

@[simp] theorem State.applyClear_port (o : StationId) (c : Channel) (r : Record) : (s.applyClear o c r).port = s.port := by
  unfold State.applyClear; (repeat' split) <;> simp


/-! ### A STATE applied (R56). -/

@[simp] theorem State.applyState_pending (o : StationId) (c : Channel) (r : Record) : (s.applyState o c r).pending = s.pending := by
  unfold State.applyState; split <;> simp

@[simp] theorem State.applyState_rst (o : StationId) (c : Channel) (r : Record) : (s.applyState o c r).rst = s.rst := by
  unfold State.applyState; split <;> simp

@[simp] theorem State.applyState_scsPin (o : StationId) (c : Channel) (r : Record) : (s.applyState o c r).scsPin = s.scsPin := by
  unfold State.applyState; split <;> simp

@[simp] theorem State.applyState_cfsPin (o : StationId) (c : Channel) (r : Record) : (s.applyState o c r).cfsPin = s.cfsPin := by
  unfold State.applyState; split <;> simp
@[simp] theorem State.applyState_grxAhead (o : StationId) (c : Channel) (r : Record) : (s.applyState o c r).grxAhead = s.grxAhead := by
  unfold State.applyState; split <;> simp
@[simp] theorem State.applyState_bitTimes (o : StationId) (c : Channel) (r : Record) : (s.applyState o c r).bitTimes = s.bitTimes := by
  unfold State.applyState; split <;> simp

@[simp] theorem State.applyState_id (o : StationId) (c : Channel) (r : Record) : (s.applyState o c r).id = s.id := by
  unfold State.applyState; split <;> simp

@[simp] theorem State.applyState_station (o : StationId) (c : Channel) (r : Record) : (s.applyState o c r).station = s.station := by
  unfold State.applyState; split <;> simp

@[simp] theorem State.applyState_cause (o : StationId) (c : Channel) (r : Record) : (s.applyState o c r).cause = s.cause := by
  unfold State.applyState; split <;> simp

@[simp] theorem State.applyState_isSealed (o : StationId) (c : Channel) (r : Record) : (s.applyState o c r).isSealed = s.isSealed := by
  unfold State.applyState; split <;> simp

@[simp] theorem State.applyState_image (o : StationId) (c : Channel) (r : Record) : (s.applyState o c r).image = s.image := by
  unfold State.applyState; split <;> simp

@[simp] theorem State.applyState_listenCount (o : StationId) (c : Channel) (r : Record) : (s.applyState o c r).listenCount = s.listenCount := by
  unfold State.applyState; split <;> simp

@[simp] theorem State.applyState_silenceTimer (o : StationId) (c : Channel) (r : Record) : (s.applyState o c r).silenceTimer = s.silenceTimer := by
  unfold State.applyState; split <;> simp

@[simp] theorem State.applyState_assembler (o : StationId) (c : Channel) (r : Record) : (s.applyState o c r).assembler = s.assembler := by
  unfold State.applyState; split <;> simp

@[simp] theorem State.applyState_framingErrors (o : StationId) (c : Channel) (r : Record) : (s.applyState o c r).framingErrors = s.framingErrors := by
  unfold State.applyState; split <;> simp

@[simp] theorem State.applyState_monitors (o : StationId) (c : Channel) (r : Record) : (s.applyState o c r).monitors = s.monitors := by
  unfold State.applyState; split <;> simp

@[simp] theorem State.applyState_line (o : StationId) (c : Channel) (r : Record) : (s.applyState o c r).line = s.line := by
  unfold State.applyState; split <;> simp

@[simp] theorem State.applyState_roster (o : StationId) (c : Channel) (r : Record) : (s.applyState o c r).roster = s.roster := by
  unfold State.applyState; split <;> simp

@[simp] theorem State.applyState_port (o : StationId) (c : Channel) (r : Record) : (s.applyState o c r).port = s.port := by
  unfold State.applyState; split <;> simp


end Sys2Proof.Machine
end

