-- ==== Sys2Proof/Laws/Feed.lean ====
section
/-! SUPPORT. What each operation of the feed can do. -/

namespace Sys2Proof.Machine

@[simp] theorem Feed.judge_records (n : Nat) (f : Feed) : (f.judge n).records = f.records := rfl
@[simp] theorem Feed.judge_next (n : Nat) (f : Feed) : (f.judge n).next = f.next := rfl
@[simp] theorem Feed.judge_gap (n : Nat) (f : Feed) : (f.judge n).gap = f.gap := rfl
@[simp] theorem Feed.judge_gapUrgent (n : Nat) (f : Feed) : (f.judge n).gapUrgent = f.gapUrgent := rfl
@[simp] theorem Feed.judge_urgentCount (n : Nat) (f : Feed) : (f.judge n).urgentCount = f.urgentCount := rfl
@[simp] theorem Feed.append_gap (r : Counter) (u : Bool) (b : FeedBody) (f : Feed) : (f.append r u b).gap = f.gap := rfl
@[simp] theorem Feed.append_gapUrgent (r : Counter) (u : Bool) (b : FeedBody) (f : Feed) :
    (f.append r u b).gapUrgent = f.gapUrgent := rfl
@[simp] theorem Feed.lose_records (u : Bool) (f : Feed) : (f.lose u).records = f.records := rfl
@[simp] theorem Feed.lose_next (u : Bool) (f : Feed) : (f.lose u).next = f.next := rfl
@[simp] theorem Feed.lose_urgentCount (u : Bool) (f : Feed) : (f.lose u).urgentCount = f.urgentCount := rfl
@[simp] theorem Feed.lose_irq (u : Bool) (f : Feed) : (f.lose u).irq = f.irq := rfl
@[simp] theorem Feed.drop_gap (n : Nat) (f : Feed) : (f.drop n).gap = f.gap := rfl
@[simp] theorem Feed.drop_gapUrgent (n : Nat) (f : Feed) : (f.drop n).gapUrgent = f.gapUrgent := rfl
@[simp] theorem Feed.drop_next (n : Nat) (f : Feed) : (f.drop n).next = f.next := rfl

/-- A record arriving is stored where there is room, and lost otherwise (R192, R194). -/
theorem Feed.arrive_cases (w : Nat) (r : Counter) (u : Bool) (b : FeedBody) (f : Feed) :
    (f.records.length < Config.feedPlaces ∧ f.arrive w r u b = (f.append r u b).judge w) ∨
      (Config.feedPlaces ≤ f.records.length ∧ f.arrive w r u b = f.lose u) := by
  unfold Feed.arrive
  split
  · exact .inl ⟨‹_›, rfl⟩
  · exact .inr ⟨Nat.le_of_not_lt ‹_›, rfl⟩

/-- A release forms a GAP record exactly where it removed a record and losses were pending (R195). -/
theorem Feed.formGap_cases (r : Counter) (n : Nat) (f : Feed) :
    (0 < n ∧ f.gap ≠ 0 ∧ f.formGap r n = { f.append r f.gapUrgent (.gap f.gap) with gap := 0, gapUrgent := false }) ∨
      ((n = 0 ∨ f.gap = 0) ∧ f.formGap r n = f) := by
  unfold Feed.formGap
  split
  · rename_i h; exact .inl ⟨h.1, h.2, rfl⟩
  · rename_i h
    refine .inr ⟨?_, rfl⟩
    by_cases hg : f.gap = 0
    · exact .inr hg
    · exact .inl (by by_contra h0; exact h ⟨Nat.pos_of_ne_zero h0, hg⟩)

/-- A saturating count after an increment is not 0. -/
theorem satInc_ne_zero (v : Counter) : satInc v ≠ 0 := by
  unfold satInc
  split
  · rename_i h; rw [h]; decide
  · intro h
    rename_i hv
    apply hv
    have : v = 0 - 1 := by rw [← h]; simp
    rw [this]; decide

end Sys2Proof.Machine
end

