-- ==== Sys2Proof/Laws/Line.lean ====
section
/-! SUPPORT. What the shared operations of the line engine and the station controller can do. -/

namespace Sys2Proof.Machine

@[simp] theorem LineEngine.leave_tx (l : LineEngine) : l.leave.tx = [] := rfl
@[simp] theorem LineEngine.leave_position (l : LineEngine) : l.leave.position = l.position := rfl
@[simp] theorem LineEngine.leave_round (l : LineEngine) : l.leave.round = l.round := rfl
@[simp] theorem LineEngine.leave_abandons (l : LineEngine) : l.leave.abandons = l.abandons := rfl
@[simp] theorem LineEngine.stopSending_tx (l : LineEngine) : l.stopSending.tx = [] := rfl
@[simp] theorem LineEngine.stopSending_position (l : LineEngine) : l.stopSending.position = l.position := rfl
@[simp] theorem LineEngine.pastBit_window (n : Nat) (l : LineEngine) : (l.pastBit n).window = l.window := rfl
@[simp] theorem LineEngine.pastBit_tx (n : Nat) (l : LineEngine) : (l.pastBit n).tx = l.tx := rfl

@[simp] theorem LineEngine.passTo_position (n : Nat) (p : Position) (l : LineEngine) : (l.passTo n p).position = p := rfl
@[simp] theorem LineEngine.passTo_tx (n : Nat) (p : Position) (l : LineEngine) :
    (l.passTo n p).tx = l.tx.drop n := rfl

/-- Two plans over each other, from their first bit on (R100). -/
@[simp] theorem overlay_nil (plan : List Bool) : overlay plan [] = plan := rfl
@[simp] theorem overlay_cons (plan : List Bool) (d : Bool) (later : List Bool) :
    overlay plan (d :: later) = (plan.headD false || d) :: overlay plan.tail later := rfl

/-- With nothing else to be sent, the plan laid over it is the plan. -/
@[simp] theorem overlay_empty (later : List Bool) : overlay [] later = later := by
  induction later with
  | nil => rfl
  | cons d later h => simp [h]

/-- The values read enter the receive register; without a window nothing is read (R139). -/
theorem LineEngine.receive_cases (r : List Bool) (l : LineEngine) :
    (l.window = none ∧ l.receive r = l) ∨
      ∃ w, l.window = some w ∧
        l.receive r = { l with window := some { w with received := r } } := by
  unfold LineEngine.receive
  split
  · exact .inl ⟨‹_›, rfl⟩
  · exact .inr ⟨_, ‹_›, rfl⟩

/-- The group is left only from JOINING or ACTIVE; then the entry on the line is taken and the line released (R13, R97). -/
theorem State.leaveGroup_cases (o : WindowOutcome) (s : State) :
    (s.station.participates = true ∧ s.leaveGroup o = { s.freeze o with line := (s.freeze o).line.leave }) ∨
      (s.station.participates = false ∧ s.leaveGroup o = s) := by
  cases hp : s.station.participates
  · exact .inr ⟨rfl, by rw [State.leaveGroup, hp]; rfl⟩
  · exact .inl ⟨rfl, by rw [State.leaveGroup, hp]; rfl⟩

@[simp] theorem State.enterQuiet_station (c : QuietCause) (o : WindowOutcome) (s : State) :
    (s.enterQuiet c o).station = .quiet := rfl

@[simp] theorem State.enterQuiet_cause (c : QuietCause) (o : WindowOutcome) (s : State) : (s.enterQuiet c o).cause = c := rfl

@[simp] theorem State.enterQuiet_silenceTimer (c : QuietCause) (o : WindowOutcome) (s : State) :
    (s.enterQuiet c o).silenceTimer = none := rfl

/-- A flight is that of the window under way, in its role, and only a station that may drive has one (R1, R128). -/
theorem State.flightAs_some {s : State} {r : Role} {f : Flight} (h : s.flightAs r = some f) :
    s.follows = true ∧ s.station.participates = true ∧
      ∃ w, s.line.window = some w ∧ w.role = r ∧ w.sentWhole = false ∧ w.flight = some f := by
  rw [State.flightAs] at h
  cases hw : s.line.window with
  | none => simp [hw] at h
  | some part =>
    simp only [hw, ite_and, Bool.and_eq_true, Option.ite_none_right_eq_some] at h
    obtain ⟨hfollows, hdrives, hrole, hwhole, hflight⟩ := h
    exact ⟨hfollows, hdrives, part, rfl, hrole, hwhole, hflight⟩

end Sys2Proof.Machine
end

