-- ==== Sys2Proof/WellFormed.lean ====
section
/-! DEFINITION. Which command terms name an event their row can be: a check for each operand whose range the row limits.
Arguments of host requests have no check here: every byte may be sent, and the station answers the refusal. -/

namespace Sys2Proof

/-- Bits of a transaction that complete no request: less than the command byte, or the byte of a command and less than its
argument bytes (R172, R173). -/
def shortOfRequest (bits : List Bool) : Bool :=
  decide (bits.length < 8) ||
    match Machine.HostCommand.ofCode ((bits.take 8).foldl Machine.shiftIn 0) with
    | some c => decide (bits.length < 8 + 8 * c.argCount)
    | none => false

/-- The operand checks. SCS_RELEASED carries the bits of a request cut short, a whole one being a row of its own (R175); BAD_COMMAND carries a code that names no command (R172); the contest is lost at a key bit (R132);
a line fault lies in the start bit or a key bit (R133); a read-back mismatch lies in the payload or the CRC (R135). -/
def Instr.wellFormed : Instr → Bool
  | .scsReleased bits => shortOfRequest bits
  | .badCommand code => (Machine.HostCommand.ofCode code).isNone
  | .contestLost bit => decide (1 ≤ bit ∧ bit ≤ 10)
  | .lineFaultAbandon bit _ => decide (bit ≤ 10)
  | .readBackMismatch bit _ => decide (11 ≤ bit ∧ bit ≤ 54)
  | .powerOn _ _ _ | .rstAsserted | .rstReleased _ | .scsAsserted => true
  | .status | .configWrite _ _ | .configRead _ | .start | .restart | .quiet | .resume => true
  | .view _ | .entry _ _ | .ack _ _ _ | .shelve _ | .unshelve _ | .purge _ => true
  | .feedPeek | .feedRelease _ | .roster _ | .queue _ | .channel _ | .countersRead | .countersClear => true
  | .cfsAsserted | .wordClose _ | .staleTimerExpiry _ | .roundTimerExpiry | .silenceTimerExpiry => true
  | .markRecognised | .markUnrecognised | .markTrailingEdge | .censusEnd _ _ | .sweepStart | .sweepEnd _ => true
  | .windowStart _ | .keyWon | .frameSentWhole | .frameJudged _ | .receiptSlot | .receiptFieldEnd _ => true
  | .roundEnd | .lineStuck | .lineRestored => true

end Sys2Proof
end

