-- ==== Sys2Proof/Laws/Port.lean ====
section
/-! SUPPORT. The host port: a byte clocked in bit by bit is taken whole, and a request clocked in whole is taken by its block. -/

namespace Sys2Proof.Machine
/-- The bits of a byte, the last one apart. -/
theorem msbBits_byte (b : Byte) :
    msbBits b = [b.getMsbD 0, b.getMsbD 1, b.getMsbD 2, b.getMsbD 3, b.getMsbD 4, b.getMsbD 5, b.getMsbD 6] ++
      [b.getMsbD 7] := rfl

theorem shiftIn_getElem {n : Nat} (v : BitVec n) (x : Bool) (i : Nat) (h : i < n) :
    (shiftIn v x)[i] = if _hi : i = 0 then x else v[i - 1] := by
  unfold shiftIn
  by_cases hi : i = 0
  · subst hi; cases x <;> simp
  · have h1 : ¬ i < 1 := by omega
    cases x <;> simp [hi, h1]

theorem foldl_shiftIn_msbBits (r b : Byte) : (msbBits b).foldl shiftIn r = b := by
  refine BitVec.eq_of_getElem_eq fun place hplace => ?_
  interval_cases place <;> simp [msbBits_byte, shiftIn_getElem, BitVec.getMsbD_eq_getLsbD]

/-- Eight bits shifted into a byte register are the bits of the byte it holds. -/
theorem msbBits_foldl_shiftIn (xs : List Bool) (h : xs.length = 8) : msbBits (xs.foldl shiftIn (0 : Byte)) = xs := by
  match xs, h with
  | [a, b, c, d, e, f, g, k], _ => decide +revert

/-- The phases in which the port takes bits from SDI (R171). -/
def Phase.taking : Phase → Prop
  | .command | .arguments => True
  | .idle | .response | .spent | .blocked => False

theorem State.clockBit_taking (s : State) (x : Bool) (h : s.port.phase.taking) : s.clockBit x = s.takeBit x := by
  cases hp : s.port.phase <;> simp [hp, Phase.taking] at h <;> simp [State.clockBit, hp]

/-- The state with the port's byte register and bit count given. -/
def State.withShift (register : Byte) (bits : Nat) (s : State) : State :=
  { s with port := { s.port with shift := register, bits := bits } }

theorem State.withShift_taking {s : State} (h : s.port.phase.taking) (r : Byte) (n : Nat) :
    (s.withShift r n).port.phase.taking := h

@[simp] theorem State.withShift_bits (s : State) (r : Byte) (n : Nat) : (s.withShift r n).port.bits = n := rfl

theorem State.takeBit_partial (s : State) (x : Bool) (h : s.port.bits ≠ 7) :
    s.takeBit x = s.withShift (shiftIn s.port.shift x) (s.port.bits + 1) := if_neg h

theorem State.takeBit_last (s : State) (x : Bool) (h : s.port.bits = 7) :
    s.takeBit x = (s.withShift 0 0).takeByte (shiftIn s.port.shift x) := if_pos h

theorem State.clockBits_partial (xs : List Bool) (s : State) (h : s.port.phase.taking) (hl : s.port.bits + xs.length ≤ 7) :
    xs.foldl State.clockBit s = s.withShift (xs.foldl shiftIn s.port.shift) (s.port.bits + xs.length) := by
  induction xs generalizing s with
  | nil => rfl
  | cons x xs ih =>
    simp only [List.length_cons] at hl
    rw [List.foldl_cons, State.clockBit_taking s x h, State.takeBit_partial s x (by omega)]
    rw [ih _ (State.withShift_taking h _ _) (by rw [State.withShift_bits]; omega)]
    simp [State.withShift, Nat.add_comm, Nat.add_left_comm]

/-- A byte clocked in while COMMAND or ARGUMENTS takes bits is taken whole (R171, R172). -/
theorem State.clockByte_taking (s : State) (b : Byte) (h : s.port.phase.taking) (hb : s.port.bits = 0) :
    s.clockByte b = (s.withShift 0 0).takeByte b := by
  have hf := foldl_shiftIn_msbBits s.port.shift b
  unfold State.clockByte State.clockBits
  rw [msbBits_byte, List.foldl_append] at *
  rw [State.clockBits_partial _ s h (by simp [hb]), List.foldl_cons, List.foldl_nil,
    State.clockBit_taking _ _ (State.withShift_taking h _ _), State.takeBit_last _ _ (by simp [hb])]
  exact congrArg (fun x => (s.withShift 0 0).takeByte x) hf

theorem HostCommand.ofCode_code (c : HostCommand) : HostCommand.ofCode c.code = some c := by
  cases c <;> decide

/-- The station as a block takes a request from it (R173). -/
def State.taking (c : HostCommand) (args : List Byte) (s : State) : State :=
  { s with
    port := { s.port with
      phase := if c.argCount = 0 then .command else .arguments, shift := 0, bits := 0, command := some c, args := args } }

theorem State.clockRequest_none (s : State) (c : HostCommand) (h : s.transactionOpen) (hc : c.argCount = 0) :
    s.clockRequest [c.code] =
      { (serve c [] (s.taking c [])).state with
        port := (serve c [] (s.taking c [])).state.port.respond ((serve c [] (s.taking c [])).response c.responseLength) } := by
  obtain ⟨hr, hp, hb⟩ := h
  rw [State.clockRequest, State.unlessRst, hr]
  simp only [List.foldl_cons, List.foldl_nil, Bool.false_eq_true, ↓reduceIte]
  rw [State.clockByte_taking s _ (by rw [hp]; trivial) hb]
  simp [State.takeByte, State.takeCommandByte, State.takeRequest, HostCommand.ofCode_code, hp, hc, State.taking, State.withShift]

theorem State.clockByte_command (s : State) (c : HostCommand) (h : s.transactionOpen) (hc : c.argCount ≠ 0) :
    s.clockByte c.code = s.taking c [] := by
  obtain ⟨_, hp, hb⟩ := h
  rw [State.clockByte_taking s _ (by rw [hp]; trivial) hb]
  simp [State.takeByte, State.takeCommandByte, HostCommand.ofCode_code, hp, hc, State.taking, State.withShift]

theorem State.clockByte_argument (s : State) (c : HostCommand) (args : List Byte) (b : Byte)
    (hl : args.length + 1 < c.argCount) : (s.taking c args).clockByte b = s.taking c (args ++ [b]) := by
  have h0 : c.argCount ≠ 0 := by omega
  rw [State.clockByte_taking _ _ (by simp [State.taking, h0, Phase.taking]) rfl]
  simp [State.takeByte, State.takeArgumentByte, State.taking, State.withShift, h0, Nat.not_le.mpr hl]

theorem State.clockByte_lastArgument (s : State) (c : HostCommand) (args : List Byte) (b : Byte)
    (hl : args.length + 1 = c.argCount) :
    (s.taking c args).clockByte b =
      { (serve c (args ++ [b]) (s.taking c (args ++ [b]))).state with
        port := (serve c (args ++ [b]) (s.taking c (args ++ [b]))).state.port.respond
          ((serve c (args ++ [b]) (s.taking c (args ++ [b]))).response c.responseLength) } := by
  have h0 : c.argCount ≠ 0 := by omega
  rw [State.clockByte_taking _ _ (by simp [State.taking, h0, Phase.taking]) rfl]
  simp [State.takeByte, State.takeArgumentByte, State.takeRequest, State.taking, State.withShift, h0, hl]

theorem State.clockBytes_arguments (s : State) (c : HostCommand) (bs args : List Byte)
    (hl : args.length + bs.length = c.argCount) (hb : bs ≠ []) :
    bs.foldl State.clockByte (s.taking c args) =
      { (serve c (args ++ bs) (s.taking c (args ++ bs))).state with
        port := (serve c (args ++ bs) (s.taking c (args ++ bs))).state.port.respond
          ((serve c (args ++ bs) (s.taking c (args ++ bs))).response c.responseLength) } := by
  induction bs generalizing args with
  | nil => exact absurd rfl hb
  | cons b bs ih =>
    rw [List.foldl_cons]
    by_cases he : bs = []
    · subst he
      exact State.clockByte_lastArgument s c args b (by simpa using hl)
    · have hn : 0 < bs.length := List.length_pos_iff.mpr he
      simp only [List.length_cons] at hl
      rw [State.clockByte_argument s c args b (by omega)]
      simpa [List.append_assoc] using ih (args ++ [b]) (by simp; omega) he

/-- The port of a transaction that goes on: still taking bits, with the aborts counted so far. -/
def Port.goesOn (p q : Port) : Prop := q.phase.taking ∧ q.aborts = p.aborts ∧ q.restartPending = p.restartPending

/-- The argument bits of a request cut short reach no block (R172, R175). -/
theorem State.clockBits_argumentsShort (c : HostCommand) (xs : List Bool) (s : State) (hp : s.port.phase = .arguments)
    (hc : s.port.command = some c) (hb : s.port.bits ≤ 7)
    (hl : 8 * s.port.args.length + s.port.bits + xs.length < 8 * c.argCount) :
    ∃ q, s.clockBits xs = { s with port := q } ∧ s.port.goesOn q := by
  induction xs generalizing s with
  | nil => exact ⟨s.port, rfl, by simp [hp, Phase.taking], rfl, rfl⟩
  | cons x xs ih =>
    have ht : s.port.phase.taking := by simp [hp, Phase.taking]
    simp only [List.length_cons] at hl
    have hstep : ∃ p, s.clockBit x = { s with port := p } ∧ p.phase = .arguments ∧ p.command = some c ∧ p.bits ≤ 7 ∧
        p.aborts = s.port.aborts ∧ p.restartPending = s.port.restartPending ∧
        8 * p.args.length + p.bits = 8 * s.port.args.length + s.port.bits + 1 := by
      rw [State.clockBit_taking s x ht]
      by_cases h7 : s.port.bits = 7
      · have hn : ¬c.argCount ≤ s.port.args.length + 1 := by omega
        rw [State.takeBit_last s x h7]
        refine ⟨{ s.port with shift := 0, bits := 0, args := s.port.args ++ [shiftIn s.port.shift x] }, ?_, hp, hc, by simp,
          rfl, rfl, ?_⟩
        · simp [State.takeByte, State.takeArgumentByte, State.withShift, hp, hc, hn]
        · simp [h7]; omega
      · rw [State.takeBit_partial s x h7]
        refine ⟨_, rfl, hp, hc, ?_, rfl, rfl, ?_⟩ <;> simp only <;> omega
    obtain ⟨p, he, h1, h2, h3, kept⟩ := hstep
    obtain ⟨q, hq, hg⟩ := ih { s with port := p } h1 h2 h3 (by simp only; omega)
    refine ⟨q, ?_, hg.1, hg.2.1.trans kept.1, hg.2.2.trans kept.2.1⟩
    rw [State.clockBits, List.foldl_cons, he]
    exact hq

/-- The bits of a request cut short, clocked in an open transaction, stay in the port and reach no block (R171, R172, R175). -/
theorem State.clockBits_short (s : State) (bits : List Bool) (h : s.transactionOpen) (hs : shortOfRequest bits = true) :
    ∃ q, s.clockBits bits = { s with port := q } ∧ s.port.goesOn q := by
  obtain ⟨hr, hp, hb⟩ := h
  have ht : s.port.phase.taking := by simp [hp, Phase.taking]
  by_cases hl : bits.length < 8
  · refine ⟨_, State.clockBits_partial bits s ht (by omega), ht, rfl, rfl⟩
  · unfold shortOfRequest at hs
    generalize hbyte : (bits.take 8).foldl shiftIn (0 : Byte) = code at hs
    cases hcode : HostCommand.ofCode code with
    | none => simp [hl, hcode] at hs
    | some c =>
      have hlen : bits.length < 8 + 8 * c.argCount := by simpa [hl, hcode] using hs
      have h0 : c.argCount ≠ 0 := by omega
      have hfirst : s.clockBits (bits.take 8) =
          { s with port := { s.port with phase := .arguments, shift := 0, bits := 0, command := some c, args := [] } } := by
        have h8 := msbBits_foldl_shiftIn (bits.take 8) (by simp; omega)
        rw [← h8, hbyte]
        refine (State.clockByte_taking s code ht hb).trans ?_
        simp [State.takeByte, State.takeCommandByte, State.withShift, hp, hcode, h0]
      obtain ⟨q, hq, hg⟩ := State.clockBits_argumentsShort c (bits.drop 8)
        { s with port := { s.port with phase := .arguments, shift := 0, bits := 0, command := some c, args := [] } }
        rfl rfl (by simp) (by simp; omega)
      refine ⟨q, ?_, hg⟩
      rw [← hq, ← hfirst]
      simp only [State.clockBits, ← List.foldl_append, List.take_append_drop]

/-- A request clocked in whole in an open transaction is taken, and its response stands in the port (R172, R173). -/
theorem State.clockRequest_eq (s : State) (c : HostCommand) (args : List Byte) (h : s.transactionOpen)
    (hl : args.length = c.argCount) :
    s.clockRequest (c.code :: args) =
      { (serve c args (s.taking c args)).state with
        port := (serve c args (s.taking c args)).state.port.respond
          ((serve c args (s.taking c args)).response c.responseLength) } := by
  by_cases h0 : c.argCount = 0
  · obtain rfl : args = [] := List.length_eq_zero_iff.mp (by omega)
    exact State.clockRequest_none s c h h0
  · have hr := h.1
    rw [State.clockRequest, State.unlessRst, hr]
    simp only [List.foldl_cons, Bool.false_eq_true, ↓reduceIte]
    rw [State.clockByte_command s c h h0]
    have := State.clockBytes_arguments s c args [] (by simpa using hl) (by rintro rfl; simp at hl; omega)
    simpa using this

end Sys2Proof.Machine
end

