-- ==== Sys2Proof/Laws/Queue.lean ====
section
/-! SUPPORT. What each operation of the notice queue can do. -/

namespace Sys2Proof.Machine

@[simp] theorem length_updateSlot (k : Fin 15) (f : QueueEntry → QueueEntry) (q : List QueueEntry) :
    (updateSlot k f q).length = q.length := by
  simp [updateSlot]

@[simp] theorem mem_freeSlot {k : Fin 15} {e : QueueEntry} {q : List QueueEntry} :
    e ∈ freeSlot k q ↔ e ∈ q ∧ e.slot ≠ k := by
  simp [freeSlot]

/-- A change of a slot leaves the entries of other slots. -/
theorem mem_updateSlot {k : Fin 15} {f : QueueEntry → QueueEntry} {e : QueueEntry} {q : List QueueEntry}
    (h : e ∈ updateSlot k f q) : (e ∈ q ∧ e.slot ≠ k) ∨ ∃ e' ∈ q, e'.slot = k ∧ e = f e' := by
  obtain ⟨e', he, rfl⟩ := List.mem_map.mp h
  by_cases hk : e'.slot = k
  · exact .inr ⟨e', he, hk, by simp [hk]⟩
  · exact .inl (by simpa [hk] using he)

/-- A change that keeps the slot keeps the slots of the queue. -/
theorem slots_updateSlot {k : Fin 15} {f : QueueEntry → QueueEntry} (hf : ∀ e, (f e).slot = e.slot) (q : List QueueEntry) :
    (updateSlot k f q).map (·.slot) = q.map (·.slot) := by
  simp only [updateSlot, List.map_map]
  refine List.map_congr_left fun e _ => ?_
  by_cases h : e.slot = k <;> simp [h, hf]

/-- The entry on the line is held and on the line (R71). -/
theorem lineEntry_some {q : List QueueEntry} {e : QueueEntry} (h : lineEntry q = some e) : e ∈ q ∧ e.onLine = true :=
  ⟨List.mem_of_find?_eq_some h, List.find?_some h⟩

theorem lineEntry_none {q : List QueueEntry} : lineEntry q = none ↔ ∀ e ∈ q, e.onLine = false := by
  simp [lineEntry, List.find?_eq_none]

@[simp] theorem QueueEntry.counted_slot (own : StationId) (o : WindowOutcome) (e : QueueEntry) :
    (e.counted own o).slot = e.slot := by
  cases o <;> rfl

@[simp] theorem QueueEntry.counted_notice (own : StationId) (o : WindowOutcome) (e : QueueEntry) :
    (e.counted own o).notice = e.notice := by
  cases o <;> rfl

/-- The steps of R85 on an entry already counted: exactly one of them ends the taking. -/
theorem State.settle_cases (o : WindowOutcome) (e : QueueEntry) (s : State) :
    (e.withdraw = true ∧ s.settle o e = ({ s with queue := freeSlot e.slot s.queue } : State).writeSuperseded e.notice) ∨
      (e.withdraw = false ∧ e.restage = true ∧
        s.settle o e =
          { s with queue := updateSlot e.slot (fun _ => { e.startOver with restage := false }) s.queue }) ∨
      (e.withdraw = false ∧ e.restage = false ∧ o = .lost ∧
        s.settle o e = { s with queue := updateSlot e.slot (fun _ => { e with state := .waiting }) s.queue }) ∨
      (e.withdraw = false ∧ e.restage = false ∧ o ≠ .lost ∧ idMinus s.required e.receipts = 0 ∧
        s.settle o e = ({ s with queue := freeSlot e.slot s.queue } : State).retireComplete e) ∨
      (e.withdraw = false ∧ e.restage = false ∧ o ≠ .lost ∧ idMinus s.required e.receipts ≠ 0 ∧
        e.attempts < s.image.retryLimit ∧
        s.settle o e = { s with queue := updateSlot e.slot (fun _ => { e with state := .resting }) s.queue }) ∨
      (e.withdraw = false ∧ e.restage = false ∧ o ≠ .lost ∧ idMinus s.required e.receipts ≠ 0 ∧
        s.image.retryLimit ≤ e.attempts ∧
        s.settle o e =
          ({ s with queue := freeSlot e.slot s.queue } : State).retirePartial e (idMinus s.required e.receipts)) := by
  cases hw : e.withdraw <;> cases hr : e.restage <;> simp only [State.settle, hw, hr, ↓reduceIte, Bool.false_eq_true]
  all_goals try simp
  split_ifs <;> simp_all

/-- An outcome is taken by the entry on the line; without one nothing happens (R85). -/
theorem State.takeOutcome_cases (o : WindowOutcome) (s : State) :
    (lineEntry s.queue = none ∧ s.takeOutcome o = s) ∨
      ∃ e, lineEntry s.queue = some e ∧ s.takeOutcome o = s.settle o (e.counted s.id o) := by
  unfold State.takeOutcome
  split
  · exact .inl ⟨‹_›, rfl⟩
  · exact .inr ⟨_, ‹_›, rfl⟩

/-- Staleness of a key: no ACK entry of the key, one off the line that is retired, or one on the line that is flagged (R94). -/
theorem State.makeStale_cases (o : StationId) (c : Channel) (s : State) :
    (s.queue.find? (fun e => e.acknowledges o c) = none ∧ s.makeStale o c = s) ∨
      (∃ e, s.queue.find? (fun e => e.acknowledges o c) = some e ∧ e.onLine = true ∧
        s.makeStale o c = { s with queue := updateSlot e.slot (fun e => { e with withdraw := true }) s.queue }) ∨
      ∃ e, s.queue.find? (fun e => e.acknowledges o c) = some e ∧ e.onLine = false ∧
        s.makeStale o c = ({ s with queue := freeSlot e.slot s.queue } : State).writeSuperseded e.notice := by
  rw [State.makeStale]
  cases he : s.queue.find? (fun e => e.acknowledges o c) with
  | none => exact .inl ⟨rfl, rfl⟩
  | some e =>
    refine .inr ?_
    cases hl : e.onLine
    · exact .inr ⟨e, rfl, hl, if_neg (by rw [hl]; exact Bool.false_ne_true)⟩
    · exact .inl ⟨e, rfl, hl, if_pos hl⟩

/-- A candidate is an eligible entry of the queue (R80). -/
theorem lowestKey_mem {key : QueueEntry → Nat} {q : List QueueEntry} {e : QueueEntry} (h : lowestKey key q = some e) : e ∈ q := by
  revert e
  induction q with
  | nil => nofun
  | cons first rest hrest =>
    intro chosen hc
    rw [lowestKey] at hc
    cases hl : lowestKey key rest with
    | none => simp only [hl, Option.some.injEq] at hc; exact hc ▸ List.mem_cons_self
    | some lower =>
      simp only [hl] at hc
      by_cases hk : key lower < key first
      · rw [if_pos hk, Option.some.injEq] at hc; exact hc ▸ List.mem_cons_of_mem first (hrest hl)
      · rw [if_neg hk, Option.some.injEq] at hc; exact hc ▸ List.mem_cons_self

end Sys2Proof.Machine
end

