-- ==== Sys2Proof/Laws/Step.lean ====
section
/-! SUPPORT. The step, and RST over the commands. -/

namespace Sys2Proof.Machine

/-- On an empty queue a bit time passes. -/
theorem step_idle {s : State} (h : s.pending = []) : step s = .next s.tick := by simp [step, h]

/-- A command at the front runs on the state with the rest of the queue. -/
theorem step_front {s : State} {c : Instr} {rest : List Instr} (h : s.pending = c :: rest) :
    step s = exec c { s with pending := rest } := by simp [step, h]

theorem State.unlessRst_on {s : State} (f : State → State) (h : s.rst = true) : s.unlessRst f = s := by
  simp [State.unlessRst, h]

theorem State.unlessRst_off {s : State} (f : State → State) (h : s.rst = false) : s.unlessRst f = f s := by
  simp [State.unlessRst, h]

/-- What holds of the state and of what the command makes of it holds after the command. -/
theorem State.unlessRst_cases {P : State → Prop} {s : State} {f : State → State} (hs : P s) (hf : s.rst = false → P (f s)) :
    P (s.unlessRst f) := by
  cases h : s.rst
  · rw [State.unlessRst_off f h]; exact hf h
  · rw [State.unlessRst_on f h]; exact hs

end Sys2Proof.Machine
end

