-- ==== Sys2Proof/Laws/Table.lean ====
section
/-! SUPPORT. What each operation of the condition table can do. -/

namespace Sys2Proof.Machine

/-- The place of a key tells the key. -/
theorem keyIndex_injective {o o' : StationId} {c c' : Channel} (h : keyIndex o c = keyIndex o' c') : o = o' ∧ c = c' := by
  unfold keyIndex at h
  have := c.isLt
  have := c'.isLt
  exact ⟨Fin.ext (by omega), Fin.ext (by omega)⟩

/-- An entry has the key of its place. -/
theorem Entry.hasKey_iff (e : Entry) (o : StationId) (c : Channel) :
    e.hasKey o c = true ↔ e.index = keyIndex o c := by
  constructor
  · intro h
    simp only [Entry.hasKey, Bool.and_eq_true, decide_eq_true_eq] at h
    rw [Entry.index, h.1, h.2]
  · intro h
    obtain ⟨h1, h2⟩ := keyIndex_injective h
    simp [Entry.hasKey, h1, h2]

@[simp] theorem Entry.hasKey_self (e : Entry) : e.hasKey e.origin e.channel = true := by simp [Entry.hasKey]

/-- An insertion adds that entry and no other. -/
@[simp] theorem mem_insertEntry {x e : Entry} {es : List Entry} : x ∈ insertEntry e es ↔ x = e ∨ x ∈ es := by
  induction es with
  | nil => simp [insertEntry]
  | cons f fs ih =>
    unfold insertEntry
    split
    · simp
    · simp [ih, or_left_comm]

@[simp] theorem length_insertEntry (e : Entry) (es : List Entry) : (insertEntry e es).length = es.length + 1 := by
  induction es with
  | nil => rfl
  | cons f fs ih => unfold insertEntry; split <;> simp [ih]

@[simp] theorem mem_dropEntry {x : Entry} {o : StationId} {c : Channel} {es : List Entry} :
    x ∈ dropEntry o c es ↔ x ∈ es ∧ x.hasKey o c = false := by
  simp [dropEntry]

@[simp] theorem length_replaceEntry (e : Entry) (es : List Entry) : (replaceEntry e es).length = es.length := by
  simp [replaceEntry]

/-- A replacement leaves the entries of other keys. -/
theorem mem_replaceEntry {x e : Entry} {es : List Entry} (h : x ∈ replaceEntry e es) :
    x = e ∨ (x ∈ es ∧ x.hasKey e.origin e.channel = false) := by
  obtain ⟨f, hf, rfl⟩ := List.mem_map.mp h
  by_cases hk : f.hasKey e.origin e.channel
  · simp [hk]
  · simp [hk, hf]

/-- The entry found for a key is held and has the key (R42). -/
theorem Table.find_some {t : Table} {o : StationId} {c : Channel} {e : Entry} (h : t.find o c = some e) :
    e ∈ t.entries ∧ e.origin = o ∧ e.channel = c := by
  have hk := List.find?_some h
  simp only [Entry.hasKey, Bool.and_eq_true, decide_eq_true_eq] at hk
  exact ⟨List.mem_of_find?_eq_some h, hk.1, hk.2⟩

/-- No entry is found for a key exactly when none has it (R42). -/
theorem Table.find_none {t : Table} {o : StationId} {c : Channel} :
    t.find o c = none ↔ ∀ e ∈ t.entries, e.hasKey o c = false := by
  simp [Table.find, List.find?_eq_none]

/-- The victim of an admission test is one of the entries given (R61). -/
theorem firstVictim_mem {es : List Entry} {v : Entry} (h : firstVictim es = some v) : v ∈ es := by
  revert v
  induction es with
  | nil => nofun
  | cons first rest hrest =>
    intro victim hv
    rw [firstVictim] at hv
    cases hl : firstVictim rest with
    | none => simp only [hl, Option.some.injEq] at hv; exact hv ▸ List.mem_cons_self
    | some later =>
      simp only [hl] at hv
      by_cases hb : victimBefore later first = true
      · rw [if_pos hb, Option.some.injEq] at hv; exact hv ▸ List.mem_cons_of_mem first (hrest hl)
      · rw [if_neg hb, Option.some.injEq] at hv; exact hv ▸ List.mem_cons_self

/-- An admission test over at least one entry names a victim. -/
theorem firstVictim_isSome {es : List Entry} (h : es ≠ []) : (firstVictim es).isSome = true := by
  cases es with
  | nil => exact absurd rfl h
  | cons e es => unfold firstVictim; split <;> (try split) <;> rfl

@[simp] theorem mem_remoteEntries {x : Entry} {id : StationId} {es : List Entry} :
    x ∈ remoteEntries id es ↔ x ∈ es ∧ x.origin ≠ id := by
  simp [remoteEntries]

@[simp] theorem Table.mem_ofOrigin {x : Entry} {t : Table} {o : StationId} : x ∈ t.ofOrigin o ↔ x ∈ t.entries ∧ x.origin = o := by
  simp [Table.ofOrigin]

/-- What a created entry does to the table and the feed; the annunciation unit computes afresh for an own-origin entry (R44,
R48, R50). -/
theorem State.addEntry_table (s : State) (e : Entry) :
    (s.addEntry e).table =
      { s.table with entries := insertEntry e s.table.entries, generation := s.table.generation + 1 } := by
  simp [State.addEntry]

theorem State.changeEntry_table (s : State) (e : Entry) :
    (s.changeEntry e).table =
      { s.table with entries := replaceEntry e s.table.entries, generation := s.table.generation + 1 } := by
  simp [State.changeEntry]

theorem State.removeEntry_table (s : State) (e : Entry) (l : Level) (q : Seq) (r : RemovalReason) (k : Option StationId) :
    (s.removeEntry e l q r k).table =
      { s.table with
        entries := Machine.dropEntry e.origin e.channel s.table.entries, generation := s.table.generation + 1 } := by
  simp [State.removeEntry]

end Sys2Proof.Machine
end

