-- ==== Sys2Proof/Laws/Tick.lean ====
section
/-! SUPPORT. What one bit time can do: to the line engine, and to the station around it. -/

namespace Sys2Proof.Machine

/-! ### Counting the runs (R118) -/

@[simp] theorem LineEngine.countBit_lineState (d : Bool) (l : LineEngine) : (l.countBit d).lineState = l.lineState := rfl
@[simp] theorem LineEngine.countBit_position (d : Bool) (l : LineEngine) : (l.countBit d).position = l.position := rfl
@[simp] theorem LineEngine.countBit_roundTimer (d : Bool) (l : LineEngine) : (l.countBit d).roundTimer = l.roundTimer := rfl
@[simp] theorem LineEngine.countBit_deferredMark (d : Bool) (l : LineEngine) : (l.countBit d).deferredMark = l.deferredMark := rfl
@[simp] theorem LineEngine.countBit_ownMark (d : Bool) (l : LineEngine) : (l.countBit d).ownMark = l.ownMark := rfl
@[simp] theorem LineEngine.countBit_round (d : Bool) (l : LineEngine) : (l.countBit d).round = l.round := rfl
@[simp] theorem LineEngine.countBit_censusMap (d : Bool) (l : LineEngine) : (l.countBit d).censusMap = l.censusMap := rfl
@[simp] theorem LineEngine.countBit_sweep (d : Bool) (l : LineEngine) : (l.countBit d).sweep = l.sweep := rfl
@[simp] theorem LineEngine.countBit_sweepResult (d : Bool) (l : LineEngine) : (l.countBit d).sweepResult = l.sweepResult := rfl
@[simp] theorem LineEngine.countBit_sweepSent (d : Bool) (l : LineEngine) : (l.countBit d).sweepSent = l.sweepSent := rfl
@[simp] theorem LineEngine.countBit_windowsUsed (d : Bool) (l : LineEngine) : (l.countBit d).windowsUsed = l.windowsUsed := rfl
@[simp] theorem LineEngine.countBit_window (d : Bool) (l : LineEngine) : (l.countBit d).window = l.window := rfl
@[simp] theorem LineEngine.countBit_crcErrors (d : Bool) (l : LineEngine) : (l.countBit d).crcErrors = l.crcErrors := rfl
@[simp] theorem LineEngine.countBit_malformed (d : Bool) (l : LineEngine) : (l.countBit d).malformed = l.malformed := rfl
@[simp] theorem LineEngine.countBit_abandons (d : Bool) (l : LineEngine) : (l.countBit d).abandons = l.abandons := rfl
@[simp] theorem LineEngine.countBit_tx (d : Bool) (l : LineEngine) : (l.countBit d).tx = l.tx := rfl

/-! ### Reading a bit (R109, R111, R112, R128, R137), closing a window (R128) -/

@[simp] theorem LineEngine.readBit_lineState (n : Nat) (d : Bool) (l : LineEngine) : (l.readBit n d).lineState = l.lineState := by
  unfold LineEngine.readBit; split <;> (try split_ifs) <;> rfl
@[simp] theorem LineEngine.readBit_position (n : Nat) (d : Bool) (l : LineEngine) : (l.readBit n d).position = l.position := by
  unfold LineEngine.readBit; split <;> (try split_ifs) <;> rfl
@[simp] theorem LineEngine.readBit_roundTimer (n : Nat) (d : Bool) (l : LineEngine) : (l.readBit n d).roundTimer = l.roundTimer := by
  unfold LineEngine.readBit; split <;> (try split_ifs) <;> rfl
@[simp] theorem LineEngine.readBit_deferredMark (n : Nat) (d : Bool) (l : LineEngine) : (l.readBit n d).deferredMark = l.deferredMark := by
  unfold LineEngine.readBit; split <;> (try split_ifs) <;> rfl
@[simp] theorem LineEngine.readBit_ownMark (n : Nat) (d : Bool) (l : LineEngine) : (l.readBit n d).ownMark = l.ownMark := by
  unfold LineEngine.readBit; split <;> (try split_ifs) <;> rfl
@[simp] theorem LineEngine.readBit_round (n : Nat) (d : Bool) (l : LineEngine) : (l.readBit n d).round = l.round := by
  unfold LineEngine.readBit; split <;> (try split_ifs) <;> rfl
@[simp] theorem LineEngine.readBit_sweepResult (n : Nat) (d : Bool) (l : LineEngine) : (l.readBit n d).sweepResult = l.sweepResult := by
  unfold LineEngine.readBit; split <;> (try split_ifs) <;> rfl
@[simp] theorem LineEngine.readBit_sweepSent (n : Nat) (d : Bool) (l : LineEngine) : (l.readBit n d).sweepSent = l.sweepSent := by
  unfold LineEngine.readBit; split <;> (try split_ifs) <;> rfl
@[simp] theorem LineEngine.readBit_windowsUsed (n : Nat) (d : Bool) (l : LineEngine) : (l.readBit n d).windowsUsed = l.windowsUsed := by
  unfold LineEngine.readBit; split <;> (try split_ifs) <;> rfl
@[simp] theorem LineEngine.readBit_crcErrors (n : Nat) (d : Bool) (l : LineEngine) : (l.readBit n d).crcErrors = l.crcErrors := by
  unfold LineEngine.readBit; split <;> (try split_ifs) <;> rfl
@[simp] theorem LineEngine.readBit_malformed (n : Nat) (d : Bool) (l : LineEngine) : (l.readBit n d).malformed = l.malformed := by
  unfold LineEngine.readBit; split <;> (try split_ifs) <;> rfl
@[simp] theorem LineEngine.readBit_abandons (n : Nat) (d : Bool) (l : LineEngine) : (l.readBit n d).abandons = l.abandons := by
  unfold LineEngine.readBit; split <;> (try split_ifs) <;> rfl
@[simp] theorem LineEngine.readBit_tx (n : Nat) (d : Bool) (l : LineEngine) : (l.readBit n d).tx = l.tx := by
  unfold LineEngine.readBit; split <;> (try split_ifs) <;> rfl
@[simp] theorem LineEngine.readBit_drivenRun (n : Nat) (d : Bool) (l : LineEngine) : (l.readBit n d).drivenRun = l.drivenRun := by
  unfold LineEngine.readBit; split <;> (try split_ifs) <;> rfl
@[simp] theorem LineEngine.readBit_releasedRun (n : Nat) (d : Bool) (l : LineEngine) : (l.readBit n d).releasedRun = l.releasedRun := by
  unfold LineEngine.readBit; split <;> (try split_ifs) <;> rfl
@[simp] theorem LineEngine.readBit_idleRun (n : Nat) (d : Bool) (l : LineEngine) : (l.readBit n d).idleRun = l.idleRun := by
  unfold LineEngine.readBit; split <;> (try split_ifs) <;> rfl
@[simp] theorem LineEngine.closeWindow_lineState (n : Nat) (l : LineEngine) : (l.closeWindow n).lineState = l.lineState := by
  unfold LineEngine.closeWindow; split_ifs <;> rfl
@[simp] theorem LineEngine.closeWindow_position (n : Nat) (l : LineEngine) : (l.closeWindow n).position = l.position := by
  unfold LineEngine.closeWindow; split_ifs <;> rfl
@[simp] theorem LineEngine.closeWindow_roundTimer (n : Nat) (l : LineEngine) : (l.closeWindow n).roundTimer = l.roundTimer := by
  unfold LineEngine.closeWindow; split_ifs <;> rfl
@[simp] theorem LineEngine.closeWindow_deferredMark (n : Nat) (l : LineEngine) : (l.closeWindow n).deferredMark = l.deferredMark := by
  unfold LineEngine.closeWindow; split_ifs <;> rfl
@[simp] theorem LineEngine.closeWindow_ownMark (n : Nat) (l : LineEngine) : (l.closeWindow n).ownMark = l.ownMark := by
  unfold LineEngine.closeWindow; split_ifs <;> rfl
@[simp] theorem LineEngine.closeWindow_round (n : Nat) (l : LineEngine) : (l.closeWindow n).round = l.round := by
  unfold LineEngine.closeWindow; split_ifs <;> rfl
@[simp] theorem LineEngine.closeWindow_censusMap (n : Nat) (l : LineEngine) : (l.closeWindow n).censusMap = l.censusMap := by
  unfold LineEngine.closeWindow; split_ifs <;> rfl
@[simp] theorem LineEngine.closeWindow_sweep (n : Nat) (l : LineEngine) : (l.closeWindow n).sweep = l.sweep := by
  unfold LineEngine.closeWindow; split_ifs <;> rfl
@[simp] theorem LineEngine.closeWindow_sweepResult (n : Nat) (l : LineEngine) : (l.closeWindow n).sweepResult = l.sweepResult := by
  unfold LineEngine.closeWindow; split_ifs <;> rfl
@[simp] theorem LineEngine.closeWindow_sweepSent (n : Nat) (l : LineEngine) : (l.closeWindow n).sweepSent = l.sweepSent := by
  unfold LineEngine.closeWindow; split_ifs <;> rfl
@[simp] theorem LineEngine.closeWindow_windowsUsed (n : Nat) (l : LineEngine) : (l.closeWindow n).windowsUsed = l.windowsUsed := by
  unfold LineEngine.closeWindow; split_ifs <;> rfl
@[simp] theorem LineEngine.closeWindow_crcErrors (n : Nat) (l : LineEngine) : (l.closeWindow n).crcErrors = l.crcErrors := by
  unfold LineEngine.closeWindow; split_ifs <;> rfl
@[simp] theorem LineEngine.closeWindow_malformed (n : Nat) (l : LineEngine) : (l.closeWindow n).malformed = l.malformed := by
  unfold LineEngine.closeWindow; split_ifs <;> rfl
@[simp] theorem LineEngine.closeWindow_abandons (n : Nat) (l : LineEngine) : (l.closeWindow n).abandons = l.abandons := by
  unfold LineEngine.closeWindow; split_ifs <;> rfl
@[simp] theorem LineEngine.closeWindow_tx (n : Nat) (l : LineEngine) : (l.closeWindow n).tx = l.tx := by
  unfold LineEngine.closeWindow; split_ifs <;> rfl
@[simp] theorem LineEngine.closeWindow_drivenRun (n : Nat) (l : LineEngine) : (l.closeWindow n).drivenRun = l.drivenRun := by
  unfold LineEngine.closeWindow; split_ifs <;> rfl
@[simp] theorem LineEngine.closeWindow_releasedRun (n : Nat) (l : LineEngine) : (l.closeWindow n).releasedRun = l.releasedRun := by
  unfold LineEngine.closeWindow; split_ifs <;> rfl
@[simp] theorem LineEngine.closeWindow_idleRun (n : Nat) (l : LineEngine) : (l.closeWindow n).idleRun = l.idleRun := by
  unfold LineEngine.closeWindow; split_ifs <;> rfl

/-- A window is kept at the end of a bit time, or dropped at a receiver when its closing gap is over (R128). -/
theorem LineEngine.closeWindow_cases (n : Nat) (l : LineEngine) :
    l.closeWindow n = l ∨
      (l.position.closesWindow n = true ∧ (∃ w, l.window = some w ∧ w.role = .receiver) ∧
        l.closeWindow n = { l with window := none }) := by
  unfold LineEngine.closeWindow
  split_ifs with h
  · refine .inr ⟨(Bool.and_eq_true_iff.mp h).1, ?_, rfl⟩
    cases hw : l.window with
    | none => simp [hw] at h
    | some w => exact ⟨w, rfl, by simpa [hw] using (Bool.and_eq_true_iff.mp h).2⟩
  · exact .inl rfl

/-- The role, the frame and the judgement of a window do not change by reading (R128). -/
@[simp] theorem Window.readBit_role (n b : Nat) (d : Bool) (w : Window) : (w.readBit n b d).role = w.role := by
  unfold Window.readBit; split_ifs <;> rfl
@[simp] theorem Window.readBit_flight (n b : Nat) (d : Bool) (w : Window) : (w.readBit n b d).flight = w.flight := by
  unfold Window.readBit; split_ifs <;> rfl
@[simp] theorem Window.readBit_judgement (n b : Nat) (d : Bool) (w : Window) : (w.readBit n b d).judgement = w.judgement := by
  unfold Window.readBit; split_ifs <;> rfl
@[simp] theorem Window.readBit_sentWhole (n b : Nat) (d : Bool) (w : Window) : (w.readBit n b d).sentWhole = w.sentWhole := by
  unfold Window.readBit; split_ifs <;> rfl

/-! ### The engine after a bit time -/

@[simp] theorem LineEngine.bitTime_lineState (i : Image) (v d : Bool) (l : LineEngine) : (l.bitTime i v d).lineState = l.lineState := by
  cases v <;> simp [LineEngine.bitTime, LineEngine.advance]
@[simp] theorem LineEngine.bitTime_deferredMark (i : Image) (v d : Bool) (l : LineEngine) : (l.bitTime i v d).deferredMark = l.deferredMark := by
  cases v <;> simp [LineEngine.bitTime, LineEngine.advance]
@[simp] theorem LineEngine.bitTime_ownMark (i : Image) (v d : Bool) (l : LineEngine) : (l.bitTime i v d).ownMark = l.ownMark := by
  cases v <;> simp [LineEngine.bitTime, LineEngine.advance]
@[simp] theorem LineEngine.bitTime_round (i : Image) (v d : Bool) (l : LineEngine) : (l.bitTime i v d).round = l.round := by
  cases v <;> simp [LineEngine.bitTime, LineEngine.advance]
@[simp] theorem LineEngine.bitTime_sweepResult (i : Image) (v d : Bool) (l : LineEngine) : (l.bitTime i v d).sweepResult = l.sweepResult := by
  cases v <;> simp [LineEngine.bitTime, LineEngine.advance]
@[simp] theorem LineEngine.bitTime_sweepSent (i : Image) (v d : Bool) (l : LineEngine) : (l.bitTime i v d).sweepSent = l.sweepSent := by
  cases v <;> simp [LineEngine.bitTime, LineEngine.advance]
@[simp] theorem LineEngine.bitTime_windowsUsed (i : Image) (v d : Bool) (l : LineEngine) : (l.bitTime i v d).windowsUsed = l.windowsUsed := by
  cases v <;> simp [LineEngine.bitTime, LineEngine.advance]
@[simp] theorem LineEngine.bitTime_crcErrors (i : Image) (v d : Bool) (l : LineEngine) : (l.bitTime i v d).crcErrors = l.crcErrors := by
  cases v <;> simp [LineEngine.bitTime, LineEngine.advance]
@[simp] theorem LineEngine.bitTime_malformed (i : Image) (v d : Bool) (l : LineEngine) : (l.bitTime i v d).malformed = l.malformed := by
  cases v <;> simp [LineEngine.bitTime, LineEngine.advance]
@[simp] theorem LineEngine.bitTime_abandons (i : Image) (v d : Bool) (l : LineEngine) : (l.bitTime i v d).abandons = l.abandons := by
  cases v <;> simp [LineEngine.bitTime, LineEngine.advance]
@[simp] theorem LineEngine.bitTime_tx (i : Image) (v d : Bool) (l : LineEngine) : (l.bitTime i v d).tx = l.tx.tail := by
  cases v <;> simp [LineEngine.bitTime, LineEngine.advance]
@[simp] theorem LineEngine.bitTime_roundTimer (i : Image) (v d : Bool) (l : LineEngine) :
    (l.bitTime i v d).roundTimer = l.roundTimer.map (· - 1) := by
  cases v <;> simp [LineEngine.bitTime, LineEngine.advance, runTimer]

/-- The runs after a bit time that is supervised (R118). -/
theorem LineEngine.bitTime_runs (i : Image) (d : Bool) (l : LineEngine) :
    (l.bitTime i true d).drivenRun = (if d then l.drivenRun + 1 else 0) ∧
      (l.bitTime i true d).releasedRun = (if d then 0 else l.releasedRun + 1) := by
  simp [LineEngine.bitTime, LineEngine.advance, LineEngine.countBit]

/-! ### The station after a bit time -/

/-- While RST is asserted no bit time passes (R3). -/
theorem State.tick_rst {s : State} (h : s.rst = true) : s.tick = s := State.unlessRst_on _ h

/-- The stale timers run, and nothing else changes with them (R25). -/
theorem State.tickMonitors_eq (cs : List Channel) (s : State) :
    cs.foldl State.tickMonitor s = { s with monitors := (cs.foldl State.tickMonitor s).monitors } := by
  induction cs generalizing s with
  | nil => rfl
  | cons c cs h => rw [List.foldl_cons, h]; rfl

/-- A bit time moves the timers, the engine and the input, counts itself, and queues what it brings; nothing else changes. -/
theorem State.tick_eq {s : State} (h : s.rst = false) :
    s.tick = { s with
      monitors := (channelOrder.foldl State.tickMonitor s).monitors
      line := s.line.bitTime s.image (decide (s.station ≠ .setup)) s.grx
      grxAhead := s.grxAhead.tail, bitTimes := s.bitTimes + 1, silenceTimer := runTimer 1 s.silenceTimer
      pending := s.pending ++ s.dueLineTimers ++
        s.lineEvents (s.line.bitTime s.image (decide (s.station ≠ .setup)) s.grx) s.grx ++ s.dueStaleTimers } := by
  rw [State.tick, State.unlessRst_off _ h, State.tickMonitors_eq]

end Sys2Proof.Machine
end

