-- ==== Sys2Proof/Tests/Slice0.lean ====
section
/-! SUPPORT. Small tests with values from the manual's tables and examples, an ill-formed term for each check of WellFormed, and
a witness for the hypotheses of each statement that has some. -/

namespace Sys2Proof.Tests

open Sys2Proof Sys2Proof.Machine

set_option Elab.async false

/-! ### States the tests start from -/

/-- The state after a command. -/
def after (c : Instr) (s : State) : State :=
  match exec c s with
  | .next t => t
  | _ => s

/-- A transaction is open (R170). -/
def opened (s : State) : State := { s with scsPin := true, port := { Port.reset with phase := .command } }

/-- A sample frame is open (R18). -/
def framing (s : State) : State := { s with cfsPin := true, assembler := { Assembler.reset with framing := true } }

/-- The settings of the example of chapter 02. -/
def exampleChannel : ChannelConfig :=
  { enable := true, la := 400, lw := 800, hw := 3000, ha := 3600, hysteresis := 50, persistence := 3 }

/-- The default image with channel 2 as in the example of chapter 02. -/
def image : Image := { Image.default with channels := Image.default.channels.set 2 exampleChannel }

/-- Station 3 in LISTEN on a silent line (the example of chapter 07). -/
def listening : State :=
  { State.reset with
    id := 3, image := image, station := .listen, isSealed := true, silenceTimer := some 1536
    line := { LineEngine.reset with position := .seek } }

/-- Channel 2 of station 3 in HIGH_WARN at seq 6. -/
def warned : Monitor :=
  { level := .highWarn, candidate := none, count := 0, lastValue := 3060, staleTimer := some 500000, faultCause := .none
    record := { seq := 6, level := .highWarn, active := true, ackedBy := none, shelved := false, value := 3060 } }

/-- The own-origin entry of that channel. -/
def ownEntry : Entry :=
  { origin := 3, channel := 2, level := .highWarn, seq := 6, active := true, ackedBy := none, shelved := false
    orphaned := false, value := 3060, firstRound := 5, changedRound := 5 }

/-- An alarm of station 2, held by the others. -/
def alarm : Entry :=
  { origin := 2, channel := 0, level := .highAlarm, seq := 14, active := true, ackedBy := none, shelved := false
    orphaned := false, value := 4000, firstRound := 6, changedRound := 6 }

/-- Stations 2 and 3 have been read in the census of round 7. -/
def roster : Vector Peer 32 :=
  ((Vector.replicate 32 Peer.reset).set 2 { presence := .present, missed := 0, lastSeen := 7 }).set 3
    { presence := .present, missed := 0, lastSeen := 7 }

/-- Station 3, ACTIVE between rounds, with its own warning and the alarm of station 2. -/
def active : State :=
  { State.reset with
    id := 3, image := image, station := .active, isSealed := true
    monitors := (Vector.replicate 8 Monitor.reset).set 2 warned
    table := { entries := [alarm, ownEntry], generation := 2, drops := 0 }
    line := { LineEngine.reset with position := .idle, roundTimer := some 400, round := 7, censusMap := 0xC }
    roster := roster
    ann := { own := 3, code := 3, link := false }
    feed :=
      { Feed.reset with
        records := [{ number := 0, round := 5, urgent := false, body := .entryAdded 3 2 .highWarn 6 true none }]
        next := 1, irq := true } }

/-- A CHANNEL entry for channel 2. -/
def notice (state : EntryState) : QueueEntry := { QueueEntry.fresh 2 (.channel 2 false) with state := state }

/-- An ACK entry for the alarm of station 2. -/
def ackNotice (state : EntryState) : QueueEntry := { QueueEntry.fresh 8 (.ack 2 0 14 3) with state := state }

/-- A REPLAY entry. -/
def replayNotice (state : EntryState) : QueueEntry := { QueueEntry.fresh 14 .replay with state := state }

/-- The frame of the warning of channel 2: RAISE, key 512 + 0 + 3. -/
def flight : Flight := flightOf 515 (announcementPayload 2 warned.record)

/-- Station 3 with a window about to start. -/
def beforeWindow (s : State) (queue : List QueueEntry) : State :=
  { s with queue := queue, line := { s.line with position := .round .gapSweep 1 } }

/-- Station 3 inside the first window of a round, with a part in it. -/
def inWindow (s : State) (bit : Nat) (queue : List QueueEntry) (part : Window) : State :=
  { s with
    queue := queue, line := { s.line with position := .round (.window 1) bit, windowsUsed := 1, window := some part } }

/-- A part in a window. -/
def part (role : Role) (f : Option Flight) : Window :=
  { role := role, flight := f, received := [], judgement := none, sentWhole := false, slots := 0 }

/-- Station 3 contends for its warning. -/
def contending : State := inWindow active 1 [notice .candidate] (part .contender (some flight))

/-- Station 3 sends its warning. -/
def sending : State := inWindow active 11 [notice .sending] (part .sender (some flight))

/-- Station 3 waits for the receipts of its warning. -/
def awaiting : State := inWindow active 57 [notice .sending] { part .sender (some flight) with sentWhole := true }

/-- Station 3 waits for its start bit in a bit time that reads as given. -/
def starting (s : State) (driven : Bool) : State :=
  { beforeWindow s [notice .waiting] with grxAhead := [driven], pending := [] }

/-- Station 3 with a sweep under way, bit time `bit` next. -/
def inSweep (bit : Nat) (p : SweepPart) : State :=
  { active with line := { active.line with position := .round .sweep bit, sweep := some p } }

/-- A participant in a sweep. -/
def sweeper (code : Code) (sent read : List Bool) : SweepPart :=
  { tookPart := true, code := code, participant := true, sent := sent, read := read }

/-- Station 3 reads a window. -/
def receiving : State := inWindow active 54 [] (part .receiver none)

/-- An announcement of station 2 in the 54 bits of a frame. -/
def announced (kind : NoticeKind) (c : Channel) (r : Record) : BitVec 54 :=
  (flightOf (BitVec.ofNat 10 (contestKey r.level.severity kind 2)) (announcementPayload c r)).values

/-- An acknowledgement by station 2. -/
def acknowledged (o : StationId) (c : Channel) (seq : Seq) : BitVec 54 :=
  (flightOf (BitVec.ofNat 10 (contestKey 3 .ack 2)) (ackPayload o c seq)).values

/-- A record of station 2 to announce. -/
def recordAt (seq : Seq) (active : Bool) (ackedBy : Option StationId) : Record :=
  { seq := seq, level := .highAlarm, active := active, ackedBy := ackedBy, shelved := false, value := 3900 }

/-- A table with 88 remote entries of stations 4 to 14, warnings, the first acknowledged. -/
def fullTable : Table :=
  { entries := (List.range 88).map (fun n =>
      { origin := Fin.ofNat 32 (4 + n / 8), channel := Fin.ofNat 8 n, level := .lowWarn, seq := 1, active := true
        ackedBy := if n = 0 then some 9 else none, shelved := false, orphaned := true, value := 0
        firstRound := 1, changedRound := 1 })
    generation := 88, drops := 0 }

/-- Station 3 reads a window with its table full. -/
def crowded : State :=
  { receiving with table := fullTable, monitors := Vector.replicate 8 Monitor.reset, ann := Annunciation.reset }

/-! ### Well-formed commands -/

theorem test_wf_badCommand : (Instr.badCommand 0x01).wellFormed = false ∧ (Instr.badCommand 0x08).wellFormed = true := by decide
theorem test_wf_scsReleased :
    (Instr.scsReleased (msbBits HostCommand.status.code)).wellFormed = false ∧ (Instr.scsReleased []).wellFormed = true := by decide
theorem test_wf_contestLost : (Instr.contestLost 0).wellFormed = false ∧ (Instr.contestLost 11).wellFormed = false ∧
    (Instr.contestLost 10).wellFormed = true := by decide
theorem test_wf_lineFault : (Instr.lineFaultAbandon 11 .owner).wellFormed = false ∧
    (Instr.lineFaultAbandon 0 .owner).wellFormed = true := by decide
theorem test_wf_readBack : (Instr.readBackMismatch 10 .owner).wellFormed = false ∧
    (Instr.readBackMismatch 55 .owner).wellFormed = false ∧ (Instr.readBackMismatch 54 .owner).wellFormed = true := by decide

/-! ### Values of the manual -/

/-- The keys of R81's table, for station 5. -/
theorem test_keys : contestKey 3 .raise 5 = 5 ∧ contestKey 3 .clear 5 = 37 ∧ contestKey 3 .ack 5 = 69 ∧
    contestKey 2 .raise 5 = 261 ∧ contestKey 1 .state 5 = 613 ∧ contestKey 0 .replay 5 = 901 := by decide

/-- The minimum round length for S = 8 and W = 2 (chapter 05's example). -/
theorem test_minimum_round : Image.default.minimumRound = 163 := by decide

/-- The targets of chapter 02's example: 2980 holds HIGH_WARN, 2940 leaves it, 3610 rises, 2000 falls from the alarm. -/
theorem test_targets : targetLevel exampleChannel .highWarn 2980 = .highWarn ∧
    targetLevel exampleChannel .highWarn 2940 = .normal ∧ targetLevel exampleChannel .highWarn 3610 = .highAlarm ∧
    targetLevel exampleChannel .highAlarm 2000 = .normal := by decide

/-- Raw levels at the default thresholds (R21). -/
theorem test_raw_defaults : rawLevel ChannelConfig.default 0 = .lowAlarm ∧ rawLevel ChannelConfig.default 4095 = .highAlarm ∧
    rawLevel ChannelConfig.default 1 = .normal := by decide

/-- The newer rule at its boundaries (R53). -/
theorem test_newer : newer 0 255 = true ∧ newer 127 0 = true ∧ newer 128 0 = false ∧ newer 5 5 = false := by decide

/-- Entry codes (R163): an active unacked alarm 111, an acked warning 010, a cleared unacked entry 001. -/
theorem test_entry_codes : alarm.code = 7 ∧ { ownEntry with ackedBy := some 1 }.code = 2 ∧
    { alarm with active := false }.code = 1 := by decide

/-- The sweep of chapter 05's example: codes 101, 110 and 011 on a line that reads 110. -/
theorem test_sweep : sweepDrives true ((msbBits (5#3)).zip (msbBits (6#3))) = [true, false, false] ∧
    sweepDrives true ((msbBits (6#3)).zip (msbBits (6#3))) = [true, true, false] ∧
    sweepDrives true ((msbBits (3#3)).zip (msbBits (6#3))) = [false, false, false] := by decide

/-- The victims of chapter 03's example: acked before cleared, the older acked one first. -/
theorem test_victims :
    let e (o : StationId) (c : Channel) (active : Bool) (by_ : Option StationId) (first : Counter) : Entry :=
      { ownEntry with origin := o, channel := c, active := active, ackedBy := by_, firstRound := first }
    victimBefore (e 6 0 true (some 1) 180) (e 4 1 true (some 1) 210) = true ∧
      victimBefore (e 4 1 true (some 1) 210) (e 3 2 false none 90) = true ∧
      victimBefore (e 3 2 false none 90) (e 1 5 true none 50) = true := by decide

/-- Codes, argument bytes and response lengths at the ends of R201's table. -/
theorem test_commands : HostCommand.ofCode 0x34 = some .countersClear ∧ HostCommand.ofCode 0x16 = none ∧
    HostCommand.ack.argCount = 3 ∧ HostCommand.queue.responseLength = 17 := by decide

/-- Item numbers of R203: 16 + 8c + k; 23 and 80 name none. -/
theorem test_items : Item.ofNumber 22 = some (.persistence 0) ∧ Item.ofNumber 23 = none ∧
    Item.ofNumber 72 = some (.enable 7) ∧ Item.ofNumber 80 = none := by decide

/-- No row of the opcode table has bits. -/
theorem test_decode : decodeTableWord 8 1 = none := by decide

/-! ### One step of each command -/

theorem test_powerOn : (after (.powerOn 0x1F true true) active).id = 31 ∧
    (after (.powerOn 0x1F true true) active).port.phase = .blocked ∧
    (after (.powerOn 0x1F true true) active).assembler.waiting = true := by decide
theorem test_rstAsserted : (after .rstAsserted sending).gtx = false ∧ (after .rstAsserted sending).station = .setup ∧
    (after .rstAsserted active).irqPin = false := by decide
theorem test_rstReleased : (after (.rstReleased 5) { active with rst := true }).id = 5 ∧
    (after (.rstReleased 5) { active with rst := true }).table.entries = [] := by decide
theorem test_scsAsserted : (after .scsAsserted active).port.phase = .command ∧ (after .scsAsserted active).sdo = some true := by
  decide
/-- Transaction 3 of chapter 09's example: ACK with two of its three argument bytes is aborted, and nothing is queued. -/
theorem test_scsReleased_counts_abort :
    let bits : List Bool := [HostCommand.ack.code, 2, 0].flatMap msbBits
    (Instr.scsReleased bits).wellFormed = true ∧ (after (.scsReleased bits) (opened active)).port.aborts = 1 ∧
      (after (.scsReleased bits) (opened active)).queue = [] ∧
      (after (.scsReleased (bits ++ [false, true])) (opened active)).port.phase = .idle ∧
      (after (.scsReleased []) (opened active)).port.aborts = 1 := by decide +kernel
theorem test_badCommand : (after (.badCommand 0x08) (opened active)).port.response = [0x01#8] := by decide +kernel
theorem test_status : (after .status (opened active)).port.response =
    [0x00#8, 3, 0, 0, 0, 7, 2, 0, 2, 0, 1, 0, 0] := by decide +kernel
theorem test_configWrite : (after (.configWrite 3 1024) (opened State.reset)).image.period = 1024 ∧
    (after (.configWrite 3 127) (opened State.reset)).port.response = [0x04#8] := by decide +kernel
theorem test_configRead : (after (.configRead 3) (opened State.reset)).port.response = [0x00#8, 2, 0] := by decide +kernel
theorem test_start : (after .start (opened { State.reset with image := image, id := 3 })).silenceTimer = some 1536 ∧
    ((after .start (opened { State.reset with image := image, id := 3 })).monitor 2).staleTimer = some 500000 := by
  decide +kernel
theorem test_start_names_group_size : (after .start (opened { State.reset with id := 8 })).port.response = [0x05#8, 0] := by
  decide +kernel
theorem test_restart : (after .restart (opened active)).station = .setup ∧ (after .restart (opened active)).image = image := by
  decide +kernel
theorem test_quiet : (after .quiet (opened active)).cause = .host ∧ (after .quiet (opened active)).feed.urgentCount = 1 := by
  decide +kernel
theorem test_resume : (after .resume (opened { active with station := .quiet, cause := .host })).station = .listen := by
  decide +kernel
theorem test_view : ((after (.view 0) (opened active)).port.response).take 5 = [0x00#8, 2, 0, 4, 14] := by decide +kernel
theorem test_entry : ((after (.entry 3 2) (opened active)).port.response).take 5 = [0x00#8, 3, 2, 2, 6] := by decide +kernel
theorem test_ack : (after (.ack 2 0 14) (opened active)).queue = [ackNotice .waiting] ∧
    (after (.ack 2 0 13) (opened active)).port.response = [0x07#8, 0xFF] := by decide +kernel
theorem test_shelve : ((after (.shelve 2) (opened active)).monitor 2).record.seq = 7 ∧
    (after (.shelve 2) (opened active)).ann.own = 0 := by decide +kernel
theorem test_unshelve : (after (.unshelve 2) (opened active)).port.response = [0x00#8] ∧
    ((after (.unshelve 2) (opened active)).monitor 2).record.seq = 6 := by decide +kernel
theorem test_purge : (after (.purge 2) (opened active)).port.response = [0x0C#8, 0xFF] ∧
    (after (.purge 3) (opened active)).port.response = [0x0B#8, 0xFF] := by decide +kernel
theorem test_feedPeek : ((after .feedPeek (opened active)).port.response).take 6 = [0x00#8, 0, 0, 0, 0, 5] := by decide +kernel
theorem test_feedRelease : (after (.feedRelease 32) (opened active)).port.response = [0x00#8, 1] ∧
    (after (.feedRelease 33) (opened active)).port.response = [0x04#8, 0xFF] := by decide +kernel
theorem test_roster : (after (.roster 2) (opened active)).port.response = [0x00#8, 1, 0, 0, 7] := by decide +kernel
theorem test_queue : (after (.queue 2) (opened active)).port.response.head? = some 0x0E#8 := by decide +kernel
theorem test_channel : ((after (.channel 2) (opened active)).port.response).length = 16 := by decide +kernel
theorem test_countersRead : ((after .countersRead (opened active)).port.response).length = 17 := by decide +kernel
theorem test_countersClear : (after .countersClear (opened { active with framingErrors := 9 })).framingErrors = 0 := by
  decide +kernel
theorem test_cfsAsserted : (after .cfsAsserted active).assembler.framing = true := by decide
/-- Chapter 02's example: 3060 is the third agreeing value; HIGH_WARN is adopted at seq 6 with value 3060. -/
theorem test_wordClose_adopts :
    let s : State :=
      { framing listening with
        monitors := (Vector.replicate 8 Monitor.reset).set 2
          { Monitor.reset with candidate := some .highWarn, count := 2, record := { Record.reset with seq := 5 } } }
    ((after (.wordClose (sampleWord 2 false 3060)) s).monitor 2).record =
      { seq := 6, level := .highWarn, active := true, ackedBy := none, shelved := false, value := 3060 } := by decide +kernel
/-- Chapter 02's example: the fault word keeps the last value and leaves the entry unacked. -/
theorem test_wordClose_fault :
    ((after (.wordClose (sampleWord 2 true 0)) (framing active)).monitor 2).record =
      { seq := 7, level := .fault, active := true, ackedBy := none, shelved := false, value := 3060 } := by decide +kernel
theorem test_wordClose_short : (after (.wordClose [true]) (framing active)).framingErrors = 1 := by decide +kernel
theorem test_staleTimerExpiry : ((after (.staleTimerExpiry 2) active).monitor 2).faultCause = .stale ∧
    ((after (.staleTimerExpiry 2) active).monitor 2).staleTimer = none := by decide +kernel
theorem test_roundTimerExpiry : (after .roundTimerExpiry active).line.tx.length = 10 ∧
    (after .roundTimerExpiry receiving).line.deferredMark = true := by decide
theorem test_silenceTimerExpiry : (after .silenceTimerExpiry listening).station = .joining ∧
    (after .silenceTimerExpiry listening).queue = [replayNotice .waiting] := by decide +kernel
theorem test_markRecognised : (after .markRecognised active).line.roundTimer = some 504 ∧
    (after .markRecognised active).line.round = 8 := by decide
theorem test_markUnrecognised :
    (after .markUnrecognised { active with line := { active.line with ownMark := true } }).line.roundTimer = some 502 := by decide
/-- An own mark with two bit times to go goes on beside the census slot of station 3 (R106, R109). -/
theorem test_markTrailingEdge :
    let s : State := { active with line := { active.line with position := .round .mark 9, tx := [true, true] } }
    (after .markTrailingEdge s).line.tx = [true, true, false, false, true] := by decide
/-- Absence limit 3, chapter 07's example: the third released slot in a row makes station 2 leave with its entry orphaned. -/
theorem test_censusEnd_leave :
    let s : State :=
      { active with
        line := { active.line with position := .round .census 7 }
        roster := roster.set 2 { presence := .present, missed := 2, lastSeen := 7 } }
    ((after (.censusEnd 8 .owner) s).peer 2).presence = .absent ∧
      (after (.censusEnd 8 .owner) s).table.entries.head? = some { alarm with orphaned := true } := by decide +kernel
theorem test_censusEnd_clash :
    let s : State := { listening with line := { listening.line with position := .round .census 7 } }
    (after (.censusEnd 8 .controller) s).cause = .idClash := by decide +kernel
/-- Station 3 holds code 011: GTX released in the first bit time of the sweep, asserted in the second. -/
theorem test_sweepStart :
    let s : State := { active with line := { active.line with position := .round .gapCensus 0 } }
    (after .sweepStart s).line.sweep = some (sweeper 3 [] []) ∧ (after .sweepStart s).gtx = false ∧
      (inSweep 1 (sweeper 3 [false] [false])).gtx = true := by decide
/-- The sweep brought by a bit time cuts nothing of an own mark still to be sent (R106). -/
theorem test_sweepStart_keeps_mark :
    let s : State := { active with line := { active.line with position := .round .gapCensus 0, tx := [true, true, true] } }
    let t : State := { s with grxAhead := [false] }.tick
    t.pending = [.sweepStart] ∧ (after .sweepStart t).line.tx = [true, true] ∧ (after .sweepStart t).gtx = true := by
  decide +kernel
theorem test_sweepEnd : (after (.sweepEnd 6) (inSweep 2 (sweeper 3 [] []))).ann.code = 6 := by decide +kernel
theorem test_windowStart :
    ((after (.windowStart true) (beforeWindow active [notice .waiting])).line.window.bind (·.flight)) = some flight ∧
      (after (.windowStart false) (beforeWindow active [])).line.position = .round .endGap 0 := by decide +kernel
theorem test_contestLost : (after (.contestLost 1) contending).queue = [notice .waiting] := by decide +kernel
theorem test_lineFaultAbandon : (after (.lineFaultAbandon 2 .owner) contending).line.abandons = 1 := by decide +kernel
theorem test_keyWon : (after .keyWon contending).queue = [notice .sending] := by decide +kernel
theorem test_readBackMismatch :
    (after (.readBackMismatch 11 .controller) { sending with line := { sending.line with abandons := 2 } }).cause = .txFault := by
  decide +kernel
theorem test_frameSentWhole :
    (after .frameSentWhole { sending with line := { sending.line with abandons := 2 } }).line.abandons = 0 := by decide +kernel
/-- Chapter 03's example: a newer RAISE overwrites, its retry is a duplicate. -/
theorem test_frameJudged :
    let s := after (.frameJudged (announced .raise 0 (recordAt 15 true none))) receiving
    s.table.generation = 3 ∧
      (after (.frameJudged (announced .raise 0 (recordAt 14 true none))) receiving).table = receiving.table := by decide +kernel
theorem test_frameJudged_crc : (after (.frameJudged 0) receiving).line.crcErrors = 1 := by decide +kernel
theorem test_receiptSlot :
    (after .receiptSlot (inWindow active 56 [] { part .receiver none with judgement := some .accepted })).line.tx = [true] := by
  decide
theorem test_receiptFieldEnd : (after (.receiptFieldEnd 4) awaiting).queue = [] ∧
    ((after (.receiptFieldEnd 0) awaiting).queue.map (·.attempts)) = [1] := by decide +kernel
theorem test_roundEnd :
    (after .roundEnd { active with line := { active.line with position := .round .endGap 3, deferredMark := true } }).line.tx.length =
      10 := by decide
theorem test_lineStuck : (after .lineStuck active).station = .stuck ∧ (after .lineStuck active).feed.urgentCount = 1 := by
  decide +kernel
theorem test_lineRestored :
    (after .lineRestored { active with station := .stuck, line := { active.line with lineState := .stuck, position := .off } }).silenceTimer =
      some 1536 := by decide

/-! ### One bit time -/

/-- In a start bit position a station with an eligible entry asserts GTX, one without does not (R113, R130). -/
theorem test_startBit_drives : (starting active true).gtx = true ∧ (beforeWindow active []).gtx = false := by decide +kernel

/-- A start bit driven in vain: the window's command, then the line fault (R133). -/
theorem test_tick_startBit_unread : (starting active false).tick.pending.map (fun c => decide (c = .windowStart false)) =
    [true, false] := by decide +kernel

/-- The fortieth driven bit time in a row finds the line stuck, the thirty-ninth does not (R118). -/
theorem test_tick_stuck :
    let s (run : Nat) : State := { active with grxAhead := [true], line := { active.line with drivenRun := run, idleRun := 1 } }
    (s 39).tick.pending = [.lineStuck] ∧ (s 38).tick.pending = [] := by decide +kernel

/-- The closing gap of the last window counts in the released run, and the end gap follows it (R115, R118). -/
theorem test_tick_last_window :
    let s : State := { receiving with line := { receiving.line with position := .round (.window 2) 66, windowsUsed := 2 } }
    s.tick.line.position = .round .endGap 0 ∧ s.tick.line.releasedRun = 1 ∧ s.tick.line.window = none := by decide +kernel

/-- GTX is a driven pin, low when asserted; IRQ is an open drain; SDO is off outside a transaction (R204). -/
theorem test_pins : (inSweep 1 (sweeper 3 [false] [false])).pins.gtx = .low ∧ active.pins.gtx = .high ∧
    active.pins.irq = .low ∧ State.reset.pins.irq = .floating ∧ active.pins.sdo = .floating := by decide +kernel

/-! ### Witnesses: the hypotheses of each statement hold together somewhere -/

/-- Station 3 with its warning on the line meets every invariant. -/
theorem witness_invariants : ∃ s t : State,
    [s.feedSound, s.tableSound, s.orphansSound, s.annSound, s.monitorsSound, s.queueSound, s.lineSound, s.flightSound,
      s.setupSound, s.disabledSound].all id = true ∧ s.table.entries.length = 2 ∧ step s = .next t :=
  let s : State := { sending with pending := [.frameSentWhole] }
  ⟨s, after .frameSentWhole sending, by decide +kernel, rfl, rfl⟩

/-- Station 3 where the clauses meet: the timers' last bit time, the run before a mark and before a stuck line, the last bit times
of every field, the start bit position, the closing gap of a receiver. -/
theorem witness_EmptyQueueIsOneBitTime :
    let placed (p : Position) : State := { active with grxAhead := [false], line := { active.line with position := p } }
    let windowed (b : Nat) : State := inWindow active b [] (part .receiver none)
    let timed : State := { active with line := { active.line with roundTimer := some 1 } }
    let driven : State := { active with grxAhead := [true], line := { active.line with idleRun := 7, drivenRun := 39 } }
    let stuck : State := { active with line := { active.line with lineState := .stuck, position := .off, releasedRun := 63 } }
    let swept : State := inSweep 2 (sweeper 3 [] [])
    (∀ s ∈ [timed, { listening with silenceTimer := some 1 }, driven, stuck, swept] ++
        ([0, 1, 2].map (fun b => placed (.round .gapMark b))) ++ ([7, 8].map (fun b => placed (.round .census b))) ++
        ([0, 1].map (fun b => placed (.round .gapSweep b))) ++ ([3, 4].map (fun b => placed (.round .endGap b))) ++
        ([.off, .seek, .round .mark 10, .round .gapCensus 0].map placed) ++
        ([0, 1, 54, 55, 56, 57, 64, 65, 66, 67].map windowed), s.pending = [] ∧ s.rst = false) ∧
      timed.line.roundTimer = some 1 ∧ (timed.monitor 2).staleTimer = some 500000 ∧ timed.grxAhead = [] ∧
      driven.station = .active ∧ driven.line.position = .idle ∧ driven.line.lineState = .up ∧
      swept.line.sweep = some (sweeper 3 [] []) ∧ (windowed 66).line.window = some (part .receiver none) := by decide +kernel

theorem witness_IdAndSealedImageAreKept : ∃ (c : Instr) (s t : State), (∀ straps, c ≠ .rstReleased straps) ∧
    (∀ straps scs cfs, c ≠ .powerOn straps scs cfs) ∧ exec c s = .next t ∧ s.station ≠ .setup :=
  ⟨.keyWon, contending, after .keyWon contending, by simp, by simp, rfl, by decide⟩

/-- GTX driven from the list, in a start bit and in a sweep; a response under way; and RST asserted. -/
theorem witness_RstReleasesEveryPin :
    let sent : State := { active with line := { active.line with tx := [true] } }
    let answering : State := { active with port := { Port.reset with phase := .response, response := [0x80#8], sent := 0 } }
    (∀ s ∈ [sent, starting active true, inSweep 1 (sweeper 3 [false] [false])], s.rst = false ∧ s.gtx = true) ∧
    (answering.rst = false ∧ answering.pins.sdo = .high ∧ answering.pins.gtx = .high) ∧
    ∃ (c : Instr) (s t : State), s.rst = true ∧ (∀ straps, c ≠ .rstReleased straps) ∧
      (∀ straps scs cfs, c ≠ .powerOn straps scs cfs) ∧ exec c s = .next t :=
  ⟨by decide +kernel, by decide +kernel, .scsAsserted, { active with rst := true }, after .scsAsserted { active with rst := true },
    by decide, by simp, by simp, rfl⟩

/-- Every phase; and bits cut off at once, one bit short of the command byte, and one bit short of the last argument byte. -/
theorem witness_ScsOpensAndEndsTransactions :
    (∀ phase ∈ [Phase.idle, .command, .arguments, .response, .spent, .blocked],
      ∃ s : State, s.rst = false ∧ s.port.phase = phase ∧ s.port.aborts = 0xFFFF#16 ∧ s.port.restartPending = true) ∧
    ((opened active).rst = false ∧ (opened active).port.phase = .command ∧ (opened active).port.bits = 0) ∧
    ([] : List Bool).length < 8 ∧ (List.replicate 7 true).length < 8 ∧
    ∃ rest : List Bool, rest.length = 23 ∧ rest.length < 8 * HostCommand.ack.argCount ∧
      shortOfRequest (msbBits HostCommand.ack.code ++ rest) = true :=
  ⟨fun phase _ => ⟨{ active with port := { Port.reset with phase := phase, aborts := 0xFFFF#16, restartPending := true } },
      rfl, rfl, rfl, rfl⟩, by decide, by decide, by decide, List.replicate 23 true, by decide⟩

theorem witness_BytesOutsideARequestReachNoBlock :
    (∃ (code : Byte) (s : State), s.transactionOpen ∧ ∀ c : HostCommand, c.code ≠ code) ∧
    (∃ (c : Instr) (s : State), isHostRequest c = true ∧ s.port.phase = .blocked) ∧
    ∃ s : State, s.rst = false ∧ s.port.phase = .response ∧ s.port.sent + 8 = 8 * s.port.response.length :=
  ⟨⟨0x08#8, opened active, by decide, fun c => by cases c <;> decide⟩,
    ⟨.status, { active with port := { Port.reset with phase := .blocked } }, by decide⟩,
    { active with port := { Port.reset with phase := .response, response := [0#8, 1], sent := 8 } }, by decide⟩

/-- An open transaction: the hypothesis of the statements about the requests without arguments. -/
theorem witness_transactionOpen : ∃ s : State, s.transactionOpen ∧ s.tableSound = true ∧ s.feed.sound = true ∧
    s.queueSound = true :=
  ⟨opened active, by decide, by decide +kernel, by decide +kernel, by decide +kernel⟩

theorem witness_ConfigReadAnswersTheItem : (∃ i : Item, i.number = (0x4E#8 : Byte).toNat) ∧
    ∀ i : Item, i.number ≠ (0x4F#8 : Byte).toNat :=
  ⟨⟨.persistence 7, by decide⟩, fun i => by
    cases i <;> simp [Item.number] <;> omega⟩

theorem witness_ConfigWriteStoresOneItem : ∃ s : State, s.transactionOpen ∧ s.station = .setup ∧
    Item.watermark.number = (7#8 : Byte).toNat ∧ Item.watermark.inRange (32#16 : BitVec 16).toNat = true ∧
    Item.watermark.inRange (33#16 : BitVec 16).toNat = false ∧ ∀ i : Item, i.number = (8#8 : Byte).toNat → i = .stationId :=
  ⟨opened State.reset, by decide, by decide, by decide, by decide, by decide, fun i => by
    cases i <;> simp [Item.number] <;> omega⟩

/-- START with the period exactly at the minimum. -/
theorem witness_StartEntersListen : ∃ s : State, s.transactionOpen ∧ s.station = .setup ∧ s.id.val < s.image.groupSize ∧
    21 + s.image.groupSize + s.image.windows * (59 + s.image.groupSize) = s.image.period ∧
    (∀ c, (s.image.channel c).enable = true →
      (s.image.channel c).la ≤ (s.image.channel c).lw ∧ (s.image.channel c).lw < (s.image.channel c).hw ∧
        (s.image.channel c).hw ≤ (s.image.channel c).ha) ∧ (s.image.channel 2).enable = true :=
  ⟨opened { State.reset with image := { image with period := 163 }, id := 7 }, by decide +kernel⟩

theorem witness_StartNamesTheFirstFailingItem :
    (∃ s : State, s.transactionOpen ∧ s.station = .setup ∧ s.image.groupSize = s.id.val) ∧
    (∃ s : State, s.transactionOpen ∧ s.station = .setup ∧ s.id.val < s.image.groupSize ∧
      s.image.period + 1 = 21 + s.image.groupSize + s.image.windows * (59 + s.image.groupSize)) ∧
    (∃ s : State, s.transactionOpen ∧ (s.image.channel 2).enable = true ∧
      (s.image.channel 2).lw + 1 = (s.image.channel 2).la ∧ ∀ d < 2, (s.image.channel d).enable = false) ∧
    (∃ s : State, s.transactionOpen ∧ (s.image.channel 2).enable = true ∧ (s.image.channel 2).la ≤ (s.image.channel 2).lw ∧
      (s.image.channel 2).hw = (s.image.channel 2).lw) ∧
    ∃ s : State, s.transactionOpen ∧ (s.image.channel 2).enable = true ∧ (s.image.channel 2).la ≤ (s.image.channel 2).lw ∧
      (s.image.channel 2).lw < (s.image.channel 2).hw ∧ (s.image.channel 2).ha + 1 = (s.image.channel 2).hw :=
  let s (k : ChannelConfig) : State := opened { State.reset with image := image.setChannel 2 k }
  ⟨⟨opened { State.reset with id := 8 }, by decide⟩,
    ⟨opened { State.reset with image := { Image.default with period := 162 } }, by decide⟩,
    ⟨s { exampleChannel with la := 801 }, by decide⟩, ⟨s { exampleChannel with hw := 800 }, by decide⟩,
    s { exampleChannel with ha := 2999 }, by decide⟩

theorem witness_QuietRequestEntersQuiet :
    (∃ s : State, s.transactionOpen ∧ s.station = .active ∧ lineEntry s.queue = none) ∧
    (∃ s : State, s.transactionOpen ∧ s.station = .listen) ∧ (∃ s : State, s.transactionOpen ∧ s.station = .quiet) ∧
    ∃ s : State, s.transactionOpen ∧ s.station = .setup :=
  ⟨⟨opened active, by decide⟩, ⟨opened listening, by decide⟩,
    ⟨opened { active with station := .quiet, cause := .host }, by decide⟩, opened State.reset, by decide⟩

/-- A candidate, one restaged, a withdrawn acknowledgement that was sending, a notice sent for the last time, one with every receipt, a
REPLAY: each on a line that is up, in a transaction. -/
theorem witness_LeavingTheGroup :
    let role (e : QueueEntry) : Role := if e.state = .candidate then .contender else .sender
    let w (e : QueueEntry) : Window := part (role e) (some flight)
    let at_ (e : QueueEntry) : State :=
      opened { inWindow active 11 [e] (w e) with station := if e.notice = .replay then .joining else .active }
    let last : QueueEntry := { notice .sending with attempts := 5 }
    let done : QueueEntry := { notice .sending with receipts := 4 }
    (∀ e ∈ [notice .candidate, { notice .candidate with restage := true }, { ackNotice .sending with withdraw := true }, last,
        done, replayNotice .sending],
      (at_ e).transactionOpen ∧ (at_ e).line.lineState = .up ∧ ((at_ e).station = .joining ∨ (at_ e).station = .active) ∧
        lineEntry (at_ e).queue = some e ∧ (at_ e).queueSound = true ∧ (at_ e).line.window = some (w e) ∧
        (w e).flight = some flight) ∧
      (at_ last).missingFrom last.receipts ≠ 0 ∧ last.attempts + 1 = (at_ last).image.retryLimit ∧
      (at_ done).missingFrom done.receipts = 0 := by decide +kernel

theorem witness_ResumeLeavesQuiet : (∃ s : State, s.transactionOpen ∧ s.station = .quiet ∧ s.line.lineState = .up) ∧
    ∃ s : State, s.transactionOpen ∧ s.station = .quiet ∧ s.line.lineState = .stuck :=
  ⟨⟨opened { active with station := .quiet, cause := .host }, by decide⟩,
    opened { active with station := .quiet, cause := .host, line := { active.line with lineState := .stuck } }, by decide⟩

theorem witness_ViewAndEntryReadTheTable : ∃ s : State, s.transactionOpen ∧ s.tableSound = true ∧
    ownEntry ∈ s.table.entries ∧ (s.table.entries.filter (fun f => decide (f.standsAbove ownEntry))).length = 1 ∧
    s.table.entries.length ≤ (2#8 : Byte).toNat :=
  ⟨opened active, by decide, by decide +kernel, by decide, by decide +kernel, by decide⟩

theorem witness_AckRequestQueuesAnAcknowledgement :
    (∃ s : State, s.transactionOpen ∧ s.station ≠ .setup ∧ s.table.find 2 0 = some alarm ∧ alarm.seq = 14 ∧
      alarm.ackedBy = none ∧ s.queue.any (fun q => q.acknowledges 2 0) = false ∧ (∀ j ∈ ackSlots, j < 9 → (slotEntry j s.queue).isSome = true) ∧
      slotEntry 9 s.queue = none) ∧
    (∃ s : State, s.transactionOpen ∧ s.table.find 2 0 = some alarm ∧ s.queue.any (fun q => q.acknowledges 2 0) = false ∧
      ∀ k ∈ ackSlots, (slotEntry k s.queue).isSome = true) ∧
    ∃ s : State, s.transactionOpen ∧ s.table.find 2 0 = some alarm ∧ s.queue.any (fun q => q.acknowledges 2 0) = true :=
  let held (k : Fin 15) : QueueEntry := QueueEntry.fresh k (.ack 5 (Fin.ofNat 8 k.val) 1 1)
  ⟨⟨opened { active with queue := [held 8] }, by decide⟩, ⟨opened { active with queue := ackSlots.map held }, by decide⟩,
    opened { active with queue := [ackNotice .waiting] }, by decide⟩

theorem witness_ShelvingCountsSeqWithAnOwnEntry : ∃ s : State, s.transactionOpen ∧ s.station ≠ .setup ∧
    (s.monitor 2).record.shelved = false ∧ s.table.find s.id 2 = some ownEntry ∧ s.table.find s.id 7 = none ∧
    s.queueSound = true :=
  ⟨opened { sending with queue := [notice .sending] }, by decide, by decide, by decide, by decide, by decide, by decide +kernel⟩

/-- One entry of the absent origin 31, and a waiting acknowledgement of it. -/
theorem witness_PurgeRemovesAnAbsentOrigin : ∃ s : State, s.transactionOpen ∧ s.station ≠ .setup ∧
    (31 : StationId).val = (31#8 : Byte).toNat ∧ (31 : StationId) ≠ s.id ∧ (s.peer 31).presence = .absent ∧
    s.queueSound = true ∧ s.tableSound = true ∧ (s.table.ofOrigin 31).length = 1 ∧
    staleRecords [(31, 0)] s.queue = [.ackSuperseded 31 0 14] :=
  ⟨opened { active with
      table := { active.table with entries := [{ alarm with origin := 31, orphaned := true }] }
      queue := [{ ackNotice .waiting with notice := .ack 31 0 14 3 }] }, by decide +kernel⟩

/-- A release of one record from a full feed with losses pending. -/
theorem witness_FeedReleaseMakesRoom : ∃ s : State, s.transactionOpen ∧ s.feed.sound = true ∧ s.feed.records.length = 32 ∧
    s.feed.gap = 1 ∧ s.feed.gapUrgent = true :=
  ⟨opened { active with
      feed :=
        { records := (List.range 32).map (fun n =>
            { number := BitVec.ofNat 16 n, round := 1, urgent := false, body := .lineRestored })
          next := 32, gap := 1, gapUrgent := true, urgentCount := 0, irq := true } }, by decide +kernel⟩

theorem witness_DiagnosticReadsAnswer : ∃ s : State, s.transactionOpen ∧ slotEntry 14 s.queue = some (replayNotice .waiting) ∧
    slotEntry 0 s.queue = none ∧ s.feed.records ≠ [] :=
  ⟨opened { active with queue := [replayNotice .waiting] }, by decide⟩

theorem witness_FramesAreJudgedByTheirBitCount :
    (∃ s : State, s.rst = false ∧ s.assembler.waiting = false ∧ s.assembler.framing = false) ∧
    (∃ s : State, s.rst = false ∧ s.assembler.waiting = true) ∧
    (∃ (s : State) (bits : List Bool), s.rst = false ∧ s.assembler.framing = true ∧ s.assembler.count + bits.length = 17 ∧
      s.framingErrors = 0xFFFF#16) ∧
    ∃ s : State, s.sampleFrameOpen ∧ s.station ≠ .setup ∧ (s.image.channel 7).enable = false :=
  ⟨⟨active, by decide⟩, ⟨{ active with assembler := { Assembler.reset with waiting := true } }, by decide⟩,
    ⟨{ framing active with framingErrors := 0xFFFF#16 }, List.replicate 17 true, by decide⟩, framing active, by decide⟩

theorem witness_LevelsFollowTheThresholds :
    let k : ChannelConfig := { exampleChannel with hysteresis := 0 }
    k.la ≤ k.lw ∧ k.lw < k.hw ∧ k.hw ≤ k.ha ∧ k.hysteresis = 0 ∧ targetLevel k .highAlarm k.ha = .highWarn := by decide

theorem witness_SamplesWithoutAdoptionStayInTheMonitor :
    (∃ s : State, s.sampleFrameOpen ∧ s.station ≠ .setup ∧ (s.image.channel 2).enable = true ∧
      targetLevel (s.image.channel 2) (s.monitor 2).level (2951#12).toNat = (s.monitor 2).level) ∧
    (∃ s : State, s.sampleFrameOpen ∧ s.station ≠ .setup ∧ (s.image.channel 2).enable = true ∧
      (s.monitor 2).candidate = some .highAlarm ∧ targetLevel (s.image.channel 2) (s.monitor 2).level (3600#12).toNat = .highAlarm ∧
      (s.monitor 2).count + 1 ≠ (s.image.channel 2).persistence) ∧
    (∃ s : State, s.sampleFrameOpen ∧ s.station ≠ .setup ∧ (s.image.channel 2).enable = true ∧ (s.monitor 2).level = .fault) ∧
    ∃ s : State, s.rst = false ∧ s.station ≠ .setup ∧ (s.monitor 2).staleTimer ≠ none ∧ (s.monitor 2).level = .fault :=
  let faulted : State := active.setMonitor 2 { warned with level := .fault, faultCause := .stale }
  ⟨⟨framing active, by decide +kernel⟩,
    ⟨(framing active).setMonitor 2 { warned with candidate := some .highAlarm, count := 1 }, by decide +kernel⟩,
    ⟨framing faulted, by decide +kernel⟩, faulted, by decide +kernel⟩

/-- Station 3 with one agreeing value to go before channel 2 returns to NORMAL. -/
def agreeing : State := (framing active).setMonitor 2 { warned with candidate := some .normal, count := 2 }

/-- The states of the witnesses below meet the invariants that the statements on adoptions assume. -/
theorem witness_adoption_invariants : ∀ s ∈ [agreeing, framing active, active],
    s.queueSound = true ∧ s.monitorsSound = true := by decide +kernel

/-- An adoption by persistence. -/
theorem witness_adoption_by_value :
    agreeing.adoptionAt (.wordClose (sampleWord 2 false 2950)) 2 .normal .none 2950 (some 500000) := by
  refine ⟨rfl, ?_, ?_, .inl ?_⟩ <;> decide +kernel

/-- An adoption by a fault word. -/
theorem witness_adoption_by_fault_word :
    (framing active).adoptionAt (.wordClose (sampleWord 2 true 0)) 2 .fault .converter 3060 (some 500000) := by
  refine ⟨rfl, ?_, ?_, .inr (.inl ⟨?_, ?_, ⟨0, rfl⟩, ?_⟩)⟩ <;> decide +kernel

/-- An adoption by the stale timer. -/
theorem witness_adoption_by_expiry : active.adoptionAt (.staleTimerExpiry 2) 2 .fault .stale 3060 none := by
  refine ⟨rfl, ?_, ?_, .inr (.inr ?_)⟩ <;> decide +kernel

theorem witness_MarkStartsARound : (∃ s : State, s.rst = false ∧ s.station = .active ∧ s.line.position = .idle) ∧
    (∃ s : State, s.rst = false ∧ s.station = .listen ∧ s.line.position = .seek) ∧
    ∃ s : State, s.rst = false ∧ s.line.position = .round (.window 1) 54 :=
  ⟨⟨active, by decide⟩, ⟨listening, by decide⟩, receiving, by decide⟩

theorem witness_RoundTimerDrivesOrDefersTheMark :
    (∃ s : State, s.rst = false ∧ s.line.roundTimer ≠ none ∧ s.station = .active ∧ s.line.position = .idle) ∧
    (∃ s : State, s.rst = false ∧ s.line.roundTimer ≠ none ∧ s.station = .active ∧ ∃ f b, s.line.position = .round f b) ∧
    (∃ s : State, s.rst = false ∧ s.line.roundTimer ≠ none ∧ s.station = .quiet) ∧
    ∃ s : State, s.rst = false ∧ s.line.ownMark = true ∧ s.station = .active ∧ s.line.position = .idle :=
  ⟨⟨active, by decide⟩, ⟨receiving, by decide, by decide, by decide, _, _, rfl⟩,
    ⟨{ active with station := .quiet, cause := .host }, by decide⟩,
    { active with line := { active.line with ownMark := true } }, by decide⟩

theorem witness_LoneStartEntersJoining : ∃ s : State, s.rst = false ∧ s.station = .listen ∧ s.silenceTimer ≠ none ∧
    s.line.position = .seek ∧ s.queueSound = true ∧ slotEntry (channelSlot 2) s.queue = none ∧ s.table.find s.id 2 ≠ none ∧
    slotEntry replaySlot s.queue ≠ none :=
  ⟨{ listening with table := active.table, queue := [replayNotice .resting] }, by decide +kernel⟩

/-- The mark with own bits still to send; the receipt slot from the end of the frame to its own place; the ends of the end gap and
of the last window; the last bit of a frame, where no round ends. -/
theorem witness_EdgesSlotsAndRoundEnd :
    let at_ (p : Position) : State :=
      { active with line := { active.line with position := p, windowsUsed := 2, tx := [true] } }
    let accepted : Window := { part .receiver none with judgement := some .accepted }
    let slot (b : Nat) : State := inWindow active b [] accepted
    (∀ p ∈ [Position.round .mark 10, .round .endGap 0, .round .endGap 4, .round (.window 2) 54, .round (.window 2) 55,
        .round (.window 2) 67], (at_ p).rst = false ∧ (at_ p).station = .active ∧ (at_ p).line.position = p ∧
      (at_ p).image.windows ≤ (at_ p).line.windowsUsed ∧ lineEntry (at_ p).queue = none) ∧
    ∀ b ∈ [55, 56, 57 + active.id.val], (slot b).rst = false ∧ (slot b).station = .active ∧
      (slot b).line.position = .round (.window 1) b ∧ (slot b).line.window = some accepted ∧
      accepted.judgement = some .accepted := by decide +kernel

/-- A census that joins station 0 and takes station 2 away, at its last slot and told from the gap; and one that clashes. -/
theorem witness_CensusUpdatesTheRoster :
    let at_ (s : State) (p : Position) : State :=
      { s with
        line := { s.line with position := p }, roster := roster.set 2 { presence := .present, missed := 2, lastSeen := 7 } }
    (∀ p ∈ [Position.round .census 7, .round .census 8, .round .gapMark 1], (at_ active p).rst = false ∧
      (at_ active p).station = .active ∧ (at_ active p).line.position = p ∧ (at_ active p).joins 9 0 = true ∧
      (at_ active p).leaves 9 2 = true ∧ (at_ active p).feed.records.length + ((at_ active p).censusRecords 9).length ≤ 32 ∧
      ((at_ active p).censusRecords 9).length = 2) ∧
    (at_ listening (.round .census 8)).station = .listen ∧ (9 : IdSet).getLsbD (at_ listening (.round .census 8)).id.val = true ∧
      (at_ listening (.round .census 8)).id.val < (at_ listening (.round .census 8)).image.groupSize := by decide +kernel

theorem witness_CensusEndsListen :
    let at_ (n : Nat) (p : Position) : State :=
      { listening with listenCount := n, line := { listening.line with position := p } }
    ∀ n ∈ [0, 1], ∀ p ∈ [Position.round .census 7, .round .census 8, .round .gapMark 1],
      (at_ n p).rst = false ∧ (at_ n p).station = .listen ∧ (at_ n p).line.position = p ∧ (at_ n p).listenCount = n ∧
        (at_ n p).queueSound = true ∧ (decide ((at_ n p).id.val < (at_ n p).image.groupSize) && hasId 8 (at_ n p).id) = true ∧
        (at_ n p).feed.records.length + ((at_ n p).censusRecords 8).length < 32 := by decide +kernel

theorem witness_SweepShowsTheValueRead :
    (∀ p ∈ [Position.round .gapCensus 0, .round .sweep 0], ∃ s : State, s.rst = false ∧ s.station = .active ∧
      s.line.position = p ∧ s.line.sweep = none) ∧
    ∀ b ∈ [0, 1, 2, 3], (inSweep b (sweeper 3 [] [])).rst = false ∧ (inSweep b (sweeper 3 [] [])).station = .active ∧
      (inSweep b (sweeper 3 [] [])).line.position = .round .sweep b ∧
      (inSweep b (sweeper 3 [] [])).line.sweep = some (sweeper 3 [] []) ∧ (inSweep b (sweeper 3 [] [])).line.tx = [] :=
  ⟨fun p _ => ⟨{ active with line := { active.line with position := p } }, rfl, rfl, rfl, rfl⟩, by decide⟩

/-- The sweep of chapter 05's example meets the hypothesis. -/
theorem witness_SweepFindsTheLargestCode : ∃ (codes : List Code) (read : Code), codes.length = 3 ∧
    read = codes.foldl (fun r c => r ||| sweepSentCode (sweeper c [] []) read) 0 :=
  ⟨[5, 6, 3], 6, by decide⟩

/-- Two eligible entries of different keys at both kinds of start bit position, a station with none, and the last bit of a frame. -/
theorem witness_WindowTakesTheLowestKey :
    let second (b : Nat) (queue : List QueueEntry) : State := inWindow active b queue (part .receiver none)
    (∃ s : State, s.rst = false ∧ s.station = .quiet ∧ s.line.position = .round .gapSweep 1 ∧
      s.line.windowsUsed < s.image.windows ∧ lineEntry s.queue = none ∧ s.queueSound = true) ∧
    (∀ s ∈ [beforeWindow active [notice .waiting, ackNotice .waiting], second 67 [notice .waiting, ackNotice .waiting]],
      s.rst = false ∧ s.station = .active ∧
      (s.line.position = .round .gapSweep 1 ∨ s.line.position = .round (.window 1) (59 + s.image.groupSize)) ∧
      s.line.windowsUsed < s.image.windows ∧ lineEntry s.queue = none ∧ s.queueSound = true ∧ s.line.tx = [] ∧
      s.queue = [notice .waiting, ackNotice .waiting] ∧
      s.noticeKey (ackNotice .waiting).notice < s.noticeKey (notice .waiting).notice) ∧
    (second 54 []).line.position = .round (.window 1) 54 ∧ (second 55 []).line.position = .round (.window 1) 55 :=
  ⟨⟨beforeWindow { active with station := .quiet } [notice .waiting], by decide +kernel⟩, by decide +kernel, rfl, rfl⟩

theorem witness_ContestAndOwnFrame :
    let withdrawn : QueueEntry := { ackNotice .candidate with withdraw := true }
    let acks : State := { contending with queue := [withdrawn] }
    contending.line.position = .round (.window contending.line.windowsUsed) 1 ∧ contending.queueSound = true ∧
      contending.sends .contender (part .contender (some flight)) flight (notice .candidate) ∧
      flight.key.getMsbD (10 - 1) = true ∧ (part .contender (some flight)).sentWhole = false ∧
    acks.sends .contender (part .contender (some flight)) flight withdrawn ∧ acks.queueSound = true ∧
    sending.line.position = .round (.window sending.line.windowsUsed) 11 ∧ sending.queueSound = true ∧
      sending.sends .sender (part .sender (some flight)) flight (notice .sending) ∧ flight.key.toNat / 32 % 8 ≠ 2 := by
  decide +kernel

/-- Station 3 with an entry on the line and its abandon counter at `n`. -/
def abandoning (s : State) (e : QueueEntry) (n : BitVec 8) : State :=
  { s with
    station := if e.notice = .replay then .joining else .active, queue := [e], line := { s.line with abandons := n } }

/-- In the key and in the payload; before the third abandonment and at it; with a flag, with every receipt, at the retry limit. -/
theorem witness_Abandonments : flight.key.getMsbD (2 - 1) = false ∧
    (∀ e ∈ [notice .candidate, { notice .candidate with restage := true }, { notice .candidate with attempts := 5 },
        { notice .candidate with receipts := 4 }, { ackNotice .candidate with withdraw := true }],
      ∀ n ∈ [1#8, 2#8, 255#8], (abandoning contending e n).sends .contender (part .contender (some flight)) flight e ∧
        (abandoning contending e n).queueSound = true ∧ e.state = .candidate) ∧
    ∀ e ∈ [notice .sending, { replayNotice .sending with attempts := 5 }],
      ∀ n ∈ [1#8, 2#8], (abandoning sending e n).sends .sender (part .sender (some flight)) flight e ∧
        (abandoning sending e n).queueSound = true ∧ e.state = .sending :=
  ⟨by decide, by decide +kernel, by decide +kernel⟩

theorem witness_LineFaultInTheStartBitEndsTheWindow :
    let w : Window := part .contender (some flight)
    let at_ (e : QueueEntry) (n : BitVec 8) : State :=
      { contending with queue := [e], line := { contending.line with position := .round .endGap 0, abandons := n } }
    w.sentWhole = false ∧
    ∀ e ∈ [{ notice .candidate with attempts := 5 }, { notice .candidate with restage := true }, replayNotice .candidate],
      ∀ n ∈ [1#8, 2#8], (at_ e n).sends .contender w flight e ∧ (at_ e n).line.position = .round .endGap 0 ∧
        e.state = .candidate ∧ (at_ e n).queueSound = true := by decide +kernel

theorem witness_ReceiptsSettleTheEntry :
    let w : Window := { part .sender (some flight) with sentWhole := true }
    let at_ (b : Nat) (e : QueueEntry) : State := inWindow active b [e] w
    (∀ b ∈ [55, 57 + active.image.groupSize],
      ∀ e ∈ [notice .sending, { notice .sending with restage := true }, { ackNotice .sending with withdraw := true }],
        (at_ b e).line.position = .round (.window (at_ b e).line.windowsUsed) b ∧ (at_ b e).queueSound = true ∧
          (at_ b e).sends .sender w flight e ∧ e.state = .sending) ∧
    ∃ s : State, s.line.position = .round (.window s.line.windowsUsed) 55 ∧ s.queueSound = true ∧ s.rst = false ∧
      s.station = .active ∧ s.line.window = some (part .receiver none) ∧ lineEntry s.queue = none :=
  ⟨by decide +kernel, inWindow active 55 [] (part .receiver none), by decide +kernel⟩

theorem witness_FramesSentAreReadAsFormed : (recordAt 0 true none).level ≠ .normal ∧
    judgeFrame (announced .state 7 (recordAt 255 false none)) = .accepted 2 (.announcement .state 7 (recordAt 255 false none)) := by
  decide +kernel

/-- Station 3 reads a window: the hypothesis of the statements about frames received; with its table full, too. -/
theorem witness_listensTo :
    (receiving.listensTo (part .receiver none) ∧ crowded.listensTo (part .receiver none)) ∧ receiving.flightSound = true ∧
      receiving.queueSound = true ∧ receiving.tableSound = true ∧ receiving.station ≠ .quiet :=
  ⟨⟨⟨rfl, by decide, ⟨1, 54, rfl⟩, by decide⟩, rfl, by decide, ⟨1, 54, rfl⟩, by decide⟩, by decide +kernel⟩

theorem witness_RejectedFramesAndClashes :
    (∃ read : BitVec 54, frameCrc (read.extractLsb' 44 10) (read.extractLsb' 8 36) ≠ read.extractLsb' 0 8) ∧
    (∃ read : BitVec 54, frameCrc (read.extractLsb' 44 10) (read.extractLsb' 8 36) = read.extractLsb' 0 8 ∧
      (read.extractLsb' 44 10).toNat / 32 % 8 = 5) ∧
    ∃ read : BitVec 54, frameCrc (read.extractLsb' 44 10) (read.extractLsb' 8 36) = read.extractLsb' 0 8 ∧
      (read.extractLsb' 44 10).toNat / 32 % 8 = 2 ∧ (read.extractLsb' 44 10).toNat % 32 = receiving.id.val :=
  ⟨⟨0, by decide +kernel⟩, ⟨(flightOf 162 0).values, by decide +kernel⟩, (flightOf 67 0).values, by decide +kernel⟩

theorem witness_AnnouncementsAreMirrored :
    judgeFrame (announced .raise 1 (recordAt 0 true none)) = .accepted 2 (.announcement .raise 1 (recordAt 0 true none)) ∧
    receiving.table.find 2 1 = none ∧ receiving.table.find 2 0 = some alarm ∧ (2 : StationId) ≠ receiving.id ∧
    judgeFrame (announced .raise 0 (recordAt 141 true none)) = .accepted 2 (.announcement .raise 0 (recordAt 141 true none)) ∧
    ((recordAt 141 true none).seq - alarm.seq).toNat = 127 ∧
    judgeFrame (announced .clear 0 (recordAt 15 false (some 5))) =
      .accepted 2 (.announcement .clear 0 (recordAt 15 false (some 5))) ∧
    (receiving.table.entries.filter (fun e => decide (e.origin ≠ receiving.id))).length < 88 ∧
    staleRecords [(2, 0)] [ackNotice .waiting] = [.ackSuperseded 2 0 14] ∧
    ({ receiving with queue := [ackNotice .waiting] } : State).queueSound = true := by decide +kernel

theorem witness_FullTableAdmitsByItsVictim : ∃ v : Entry,
    judgeFrame (announced .raise 0 (recordAt 1 true none)) = .accepted 2 (.announcement .raise 0 (recordAt 1 true none)) ∧
    (2 : StationId) ≠ crowded.id ∧ crowded.table.find 2 0 = none ∧ crowded.tableSound = true ∧
    (crowded.table.entries.filter (fun e => decide (e.origin ≠ crowded.id))).length = 88 ∧
    v ∈ crowded.table.entries ∧ v.origin ≠ crowded.id ∧
    ∀ e ∈ crowded.table.entries, e.origin ≠ crowded.id → e ≠ v →
      v.severity < e.severity ∨ (v.severity = e.severity ∧
        ((v.acked = true ∧ e.acked = false) ∨ (v.acked = e.acked ∧
          ((v.active = false ∧ e.active = true) ∨ (v.active = e.active ∧
            (v.firstRound.toNat < e.firstRound.toNat ∨ (v.firstRound = e.firstRound ∧
              (v.origin < e.origin ∨ (v.origin = e.origin ∧ v.channel < e.channel))))))))) :=
  ⟨{ origin := 4, channel := 0, level := .lowWarn, seq := 1, active := true, ackedBy := some 9, shelved := false
     orphaned := true, value := 0, firstRound := 1, changedRound := 1 }, by decide +kernel⟩

theorem witness_AcknowledgementsAreApplied :
    (∃ (s : State) (w : Window), s.listensTo w ∧ (2 : StationId) ≠ s.id ∧
      judgeFrame (acknowledged 3 2 6) = .accepted 2 (.ack 3 2 6) ∧ s.table.find 3 2 = some ownEntry ∧ ownEntry.ackedBy = none) ∧
    ∃ (s : State) (w : Window) (f : Flight) (e : QueueEntry), w.sentWhole = false ∧
      s.line.position = .round (.window 1) 54 ∧ s.sends .sender w f e ∧ f.key.toNat / 32 % 8 = 2 ∧
      f.payload = ackPayload 2 0 14 ∧ s.table.find 2 0 = some alarm :=
  let f : Flight := flightOf 67 (ackPayload 2 0 14)
  ⟨⟨receiving, part .receiver none, ⟨by decide, by decide, ⟨1, 54, rfl⟩, by decide⟩, by decide +kernel⟩,
    inWindow active 54 [ackNotice .sending] (part .sender (some f)), part .sender (some f), f, ackNotice .sending,
    by decide +kernel⟩

theorem witness_ReplayRemovesTheOriginAndReannounces :
    judgeFrame (flightOf 898 (replayPayload image)).values = .accepted 2 (.replay 8 2 512) ∧ (2 : StationId) ≠ receiving.id ∧
    receiving.queueSound = true ∧ (receiving.table.entries.filter (fun e => decide (e.origin = 2))).length = 1 ∧
    receiving.tableSound = true := by decide +kernel

theorem witness_StuckLineAndItsRecovery :
    contending.rst = false ∧ contending.line.lineState = .up ∧ contending.station = .active ∧
      lineEntry contending.queue = some (notice .candidate) ∧ contending.queueSound = true ∧
    (∀ station ∈ [StationState.quiet, .listen, .active], ∃ s : State, s.rst = false ∧ s.line.lineState = .up ∧
      s.station = station ∧ lineEntry s.queue = none) ∧
    ∀ station ∈ [StationState.quiet, .stuck], ∃ s : State, s.rst = false ∧ s.line.lineState = .stuck ∧ s.station = station :=
  ⟨rfl, rfl, rfl, rfl, by decide +kernel, fun station _ => ⟨{ active with station := station }, rfl, rfl, rfl, rfl⟩,
    fun station _ =>
      ⟨{ active with station := station, line := { active.line with lineState := .stuck, position := .off } }, rfl, rfl, rfl⟩⟩

end Sys2Proof.Tests
end

section
/-! PROOFS. The host port (chapter 09): what a request answered by its block leaves in the port, and COUNTERS_CLEAR. -/

namespace Sys2Proof.Machine

theorem padded_of_length_eq {n : Nat} {bytes : List Byte} (h : bytes.length = n) : padded n bytes = bytes := by
  simp [padded, h]

/-- The response put in the port of a station whose block has taken the request makes the answered station (R173). -/
theorem State.respond_taking (s : State) (c : HostCommand) (args response : List Byte) :
    ({ s.taking c args with port := (s.taking c args).port.respond response } : State) = s.answered c args response := rfl

/-- A request whose block goes over from `s` to `t` and answers with the command's full length: the station is `t`, with that
answer ready to be clocked out (R173, R174). -/
theorem State.clockRequest_answered {s t : State} {c : HostCommand} {args data : List Byte} {status : Status}
    (hopen : s.transactionOpen) (hargs : args.length = c.argCount)
    (hserve : serve c args (s.taking c args) = { state := t.taking c args, status := status, data := data })
    (hlength : data.length + 1 = c.responseLength) :
    s.clockRequest (c.code :: args) = t.answered c args (status.code :: data) := by
  have hfull : padded c.responseLength (status.code :: data) = status.code :: data :=
    padded_of_length_eq (by simpa using hlength)
  rw [State.clockRequest_eq s c args hopen hargs, hserve, Reply.response, hfull]
  exact State.respond_taking t c args _

theorem exec_countersClear (s : State) : exec .countersClear s = .next (s.clockRequest [HostCommand.countersClear.code]) := by
  rfl

/-- The station with the six counters of COUNTERS_CLEAR at 0 (R188). -/
def State.countersCleared (s : State) : State :=
  { s with
    framingErrors := 0
    table := { s.table with drops := 0 }
    line := { s.line with crcErrors := 0, malformed := 0, abandons := 0 }
    port := { s.port with aborts := 0 } }

/-- COUNTERS_CLEAR answers OK with no data, and clearing the counters does not disturb the request in the port (R188). -/
theorem serve_countersClear_taking (s : State) (c : HostCommand) (args : List Byte) :
    serve .countersClear args (s.taking c args) =
      { state := s.countersCleared.taking c args, status := .ok, data := [] } := rfl

/-- Settles O20: the block's reply is OK alone, which is the whole of the command's one-byte response. -/
theorem countersClearSetsSixCounters : Obligations.CountersClearSetsSixCounters := by
  unfold Obligations.CountersClearSetsSixCounters
  intro s hopen
  have hanswered : s.clockRequest [HostCommand.countersClear.code] =
      s.countersCleared.answered .countersClear [] [Status.ok.code] :=
    State.clockRequest_answered hopen rfl (serve_countersClear_taking s .countersClear []) rfl
  rw [exec_countersClear, hanswered]
  rfl

end Sys2Proof.Machine
end

section
/-! PROOFS. Which parts of the state each shared operation can touch: one equation per operation, so that a proof about any other
part reads it off. -/

namespace Sys2Proof.Machine

/-! ### The feed only takes records -/

/-- Records arriving one after another at a feed (R192, R194). -/
inductive Feed.Grows (w : Nat) (f : Feed) : Feed → Prop
  | refl : Feed.Grows w f f
  | arrive {g : Feed} (r : Counter) (u : Bool) (b : FeedBody) (h : Feed.Grows w f g) : Feed.Grows w f (g.arrive w r u b)

theorem Feed.Grows.trans {w : Nat} {f g h : Feed} (hfg : f.Grows w g) (hgh : g.Grows w h) : f.Grows w h := by
  induction hgh with
  | refl => exact hfg
  | arrive r u b _ ih => exact .arrive r u b ih

theorem State.write_grows (b : FeedBody) (u : Bool) (s : State) :
    s.feed.Grows s.image.watermark (s.write b u).feed := .arrive _ _ _ .refl

/-! ### The queue's outcome and the leaving of the group -/

theorem State.writeSuperseded_frame (n : Notice) (s : State) :
    s.writeSuperseded n = { s with feed := (s.writeSuperseded n).feed } := by
  cases n <;> rfl

theorem State.writeSuperseded_grows (n : Notice) (s : State) :
    s.feed.Grows s.image.watermark (s.writeSuperseded n).feed := by
  cases n with
  | ack o c q _ => exact s.write_grows _ _
  | _ => exact .refl

theorem State.makeStale_frame (o : StationId) (c : Channel) (s : State) :
    s.makeStale o c = { s with queue := (s.makeStale o c).queue, feed := (s.makeStale o c).feed } := by
  obtain ⟨_, h⟩ | ⟨e, _, _, h⟩ | ⟨e, _, _, h⟩ := s.makeStale_cases o c
  · rw [h]
  · rw [h]
  · rw [h, State.writeSuperseded_frame]

theorem State.makeStale_grows (o : StationId) (c : Channel) (s : State) :
    s.feed.Grows s.image.watermark (s.makeStale o c).feed := by
  obtain ⟨_, h⟩ | ⟨e, _, _, h⟩ | ⟨e, _, _, h⟩ := s.makeStale_cases o c
  · rw [h]; exact .refl
  · rw [h]; exact .refl
  · rw [h]; exact State.writeSuperseded_grows e.notice { s with queue := freeSlot e.slot s.queue }

theorem State.retireComplete_frame (e : QueueEntry) (s : State) :
    s.retireComplete e = { s with feed := (s.retireComplete e).feed, station := (s.retireComplete e).station } := by
  unfold State.retireComplete
  split <;> rfl

theorem State.retireComplete_grows (e : QueueEntry) (s : State) :
    s.feed.Grows s.image.watermark (s.retireComplete e).feed := by
  unfold State.retireComplete
  split
  · exact s.write_grows _ _
  all_goals exact .refl

theorem State.retirePartial_frame (e : QueueEntry) (m : IdSet) (s : State) :
    s.retirePartial e m = { s with feed := (s.retirePartial e m).feed, station := (s.retirePartial e m).station } := by
  unfold State.retirePartial
  split <;> rfl

theorem State.retirePartial_grows (e : QueueEntry) (m : IdSet) (s : State) :
    s.feed.Grows s.image.watermark (s.retirePartial e m).feed := by
  unfold State.retirePartial
  split
  all_goals exact s.write_grows _ _

theorem State.settle_frame (o : WindowOutcome) (e : QueueEntry) (s : State) :
    s.settle o e =
      { s with queue := (s.settle o e).queue, feed := (s.settle o e).feed, station := (s.settle o e).station } := by
  obtain ⟨_, h⟩ | ⟨_, _, h⟩ | ⟨_, _, _, h⟩ | ⟨_, _, _, _, h⟩ | ⟨_, _, _, _, _, h⟩ | ⟨_, _, _, _, _, h⟩ := s.settle_cases o e
  · rw [h, State.writeSuperseded_frame]
  · rw [h]
  · rw [h]
  · rw [h, State.retireComplete_frame]
  · rw [h]
  · rw [h, State.retirePartial_frame]

theorem State.settle_grows (o : WindowOutcome) (e : QueueEntry) (s : State) :
    s.feed.Grows s.image.watermark (s.settle o e).feed := by
  obtain ⟨_, h⟩ | ⟨_, _, h⟩ | ⟨_, _, _, h⟩ | ⟨_, _, _, _, h⟩ | ⟨_, _, _, _, _, h⟩ | ⟨_, _, _, _, _, h⟩ := s.settle_cases o e
  · rw [h]; exact State.writeSuperseded_grows e.notice { s with queue := freeSlot e.slot s.queue }
  · rw [h]; exact .refl
  · rw [h]; exact .refl
  · rw [h]; exact State.retireComplete_grows e { s with queue := freeSlot e.slot s.queue }
  · rw [h]; exact .refl
  · rw [h]; exact State.retirePartial_grows e _ { s with queue := freeSlot e.slot s.queue }

theorem State.takeOutcome_frame (o : WindowOutcome) (s : State) :
    s.takeOutcome o =
      { s with queue := (s.takeOutcome o).queue, feed := (s.takeOutcome o).feed, station := (s.takeOutcome o).station } := by
  obtain ⟨_, h⟩ | ⟨e, _, h⟩ := s.takeOutcome_cases o
  · rw [h]
  · rw [h, State.settle_frame]

theorem State.takeOutcome_grows (o : WindowOutcome) (s : State) :
    s.feed.Grows s.image.watermark (s.takeOutcome o).feed := by
  obtain ⟨_, h⟩ | ⟨e, _, h⟩ := s.takeOutcome_cases o
  · rw [h]; exact .refl
  · rw [h]; exact State.settle_grows o _ s

/-- How the entry on the line is taken when the station leaves its group: a SENDING one as an attempt, a CANDIDATE as given (R97). -/
def QueueEntry.leftAs (candidateAs : WindowOutcome) (e : QueueEntry) : WindowOutcome :=
  if e.state = .sending then .abandoned else candidateAs

/-- Leaving the group, a REPLAY entry taken as an attempt rests, and any other entry on the line takes its outcome (R97). -/
theorem State.freeze_cases (o : WindowOutcome) (s : State) :
    (lineEntry s.queue = none ∧ s.freeze o = s) ∨
      (∃ e, lineEntry s.queue = some e ∧ e.notice = .replay ∧ e.leftAs o ≠ .lost ∧
        s.freeze o =
          { s with queue := updateSlot e.slot (fun e => { e with attempts := e.attempts + 1, state := .resting }) s.queue }) ∨
      ∃ e, lineEntry s.queue = some e ∧ ¬(e.notice = .replay ∧ e.leftAs o ≠ .lost) ∧
        s.freeze o = s.takeOutcome (e.leftAs o) := by
  cases he : lineEntry s.queue with
  | none => exact .inl ⟨rfl, by simp [State.freeze, he]⟩
  | some e =>
    refine .inr ?_
    by_cases h : e.notice = .replay ∧ e.leftAs o ≠ .lost
    · refine .inl ⟨e, rfl, h.1, h.2, ?_⟩
      simp only [State.freeze, he]
      exact if_pos h
    · refine .inr ⟨e, rfl, h, ?_⟩
      simp only [State.freeze, he]
      exact if_neg h

theorem State.freeze_frame (o : WindowOutcome) (s : State) :
    s.freeze o = { s with queue := (s.freeze o).queue, feed := (s.freeze o).feed, station := (s.freeze o).station } := by
  obtain ⟨_, h⟩ | ⟨e, _, _, _, h⟩ | ⟨e, _, _, h⟩ := s.freeze_cases o
  · rw [h]
  · rw [h]
  · rw [h, State.takeOutcome_frame]

theorem State.freeze_grows (o : WindowOutcome) (s : State) : s.feed.Grows s.image.watermark (s.freeze o).feed := by
  obtain ⟨_, h⟩ | ⟨e, _, _, _, h⟩ | ⟨e, _, _, h⟩ := s.freeze_cases o
  · rw [h]; exact .refl
  · rw [h]; exact .refl
  · rw [h]; exact State.takeOutcome_grows _ s

theorem State.leaveGroup_frame (o : WindowOutcome) (s : State) :
    s.leaveGroup o =
      { s with
        queue := (s.leaveGroup o).queue, feed := (s.leaveGroup o).feed, station := (s.leaveGroup o).station
        line := (s.leaveGroup o).line } := by
  obtain ⟨_, h⟩ | ⟨_, h⟩ := s.leaveGroup_cases o
  · rw [h, State.freeze_frame]
  · rw [h]

theorem State.leaveGroup_grows (o : WindowOutcome) (s : State) :
    s.feed.Grows s.image.watermark (s.leaveGroup o).feed := by
  obtain ⟨_, h⟩ | ⟨_, h⟩ := s.leaveGroup_cases o
  · rw [h]; exact State.freeze_grows o s
  · rw [h]; exact .refl

theorem State.enterQuiet_frame (c : QuietCause) (o : WindowOutcome) (s : State) :
    s.enterQuiet c o =
      { s with
        queue := (s.enterQuiet c o).queue, feed := (s.enterQuiet c o).feed, station := .quiet
        line := (s.enterQuiet c o).line, cause := c, silenceTimer := none, ann := (s.enterQuiet c o).ann } := by
  unfold State.enterQuiet
  simp only
  rw [State.leaveGroup_frame]
  rfl

theorem State.enterQuiet_grows (c : QuietCause) (o : WindowOutcome) (s : State) :
    s.feed.Grows s.image.watermark (s.enterQuiet c o).feed := by
  have hwatermark : (s.leaveGroup o).image = s.image := by rw [State.leaveGroup_frame]
  exact hwatermark ▸ .arrive _ _ _ (hwatermark ▸ State.leaveGroup_grows o s)

theorem State.abandon_frame (first : TakenFirst) (s : State) :
    s.abandon first =
      { s with
        queue := (s.abandon first).queue, feed := (s.abandon first).feed, station := (s.abandon first).station
        line := (s.abandon first).line, cause := (s.abandon first).cause, silenceTimer := (s.abandon first).silenceTimer
        ann := (s.abandon first).ann } := by
  have howner : ((s.takeOutcome .abandoned).countAbandon) =
      { s with
        queue := (s.takeOutcome .abandoned).queue, feed := (s.takeOutcome .abandoned).feed
        station := (s.takeOutcome .abandoned).station, line := { s.line with abandons := satInc s.line.abandons } } := by
    rw [State.takeOutcome_frame]; rfl
  cases first
  · simp only [State.abandon, howner]
    split
    · rw [State.enterQuiet_frame]
    · rfl
  · simp only [State.abandon]
    split
    · rw [State.enterQuiet_frame]; rfl
    · rw [State.takeOutcome_frame]; rfl

theorem State.abandon_grows (first : TakenFirst) (s : State) : s.feed.Grows s.image.watermark (s.abandon first).feed := by
  have himage : (s.takeOutcome .abandoned).countAbandon.image = s.image := by
    rw [State.countAbandon_image, State.takeOutcome_frame]
  cases first
  · simp only [State.abandon]
    split
    · exact .trans (State.takeOutcome_grows _ s) (himage ▸ State.enterQuiet_grows _ _ (s.takeOutcome .abandoned).countAbandon)
    · exact State.takeOutcome_grows _ s
  · simp only [State.abandon]
    split
    · exact State.enterQuiet_grows _ _ s.countAbandon
    · exact State.takeOutcome_grows _ s.countAbandon

/-! ### The table's operations -/

/-- The blocks that a change of the condition table reaches: the table itself, the feed, which takes records, the queue, the
annunciation unit, and the monitors where an acknowledgement is passed on. -/
def State.TableReach (s t : State) : Prop :=
  ∃ table monitors queue ann feed, s.feed.Grows s.image.watermark feed ∧
    t = { s with table := table, monitors := monitors, queue := queue, ann := ann, feed := feed }

theorem State.TableReach.refl (s : State) : s.TableReach s := ⟨_, _, _, _, _, .refl, rfl⟩

theorem State.TableReach.trans {s t u : State} (hst : s.TableReach t) (htu : t.TableReach u) : s.TableReach u := by
  obtain ⟨_, _, _, _, _, hst, rfl⟩ := hst
  obtain ⟨_, _, _, _, _, htu, rfl⟩ := htu
  exact ⟨_, _, _, _, _, hst.trans htu, rfl⟩

/-- The equation of a state with one of its reach. -/
theorem State.TableReach.eq {s t : State} (h : s.TableReach t) :
    t = { s with table := t.table, monitors := t.monitors, queue := t.queue, ann := t.ann, feed := t.feed } := by
  obtain ⟨_, _, _, _, _, _, rfl⟩ := h; rfl

theorem State.TableReach.grows {s t : State} (h : s.TableReach t) : s.feed.Grows s.image.watermark t.feed := by
  obtain ⟨_, _, _, _, _, hf, rfl⟩ := h; exact hf

theorem State.TableReach.id {s t : State} (h : s.TableReach t) : t.id = s.id := by rw [h.eq]
theorem State.TableReach.rst {s t : State} (h : s.TableReach t) : t.rst = s.rst := by rw [h.eq]
theorem State.TableReach.image {s t : State} (h : s.TableReach t) : t.image = s.image := by rw [h.eq]
theorem State.TableReach.station {s t : State} (h : s.TableReach t) : t.station = s.station := by rw [h.eq]
theorem State.TableReach.roster {s t : State} (h : s.TableReach t) : t.roster = s.roster := by rw [h.eq]
theorem State.TableReach.line {s t : State} (h : s.TableReach t) : t.line = s.line := by rw [h.eq]
theorem State.TableReach.cause {s t : State} (h : s.TableReach t) : t.cause = s.cause := by rw [h.eq]
theorem State.TableReach.silenceTimer {s t : State} (h : s.TableReach t) : t.silenceTimer = s.silenceTimer := by rw [h.eq]
theorem State.TableReach.listenCount {s t : State} (h : s.TableReach t) : t.listenCount = s.listenCount := by rw [h.eq]

theorem State.write_reach (b : FeedBody) (u : Bool) (s : State) : s.TableReach (s.write b u) :=
  ⟨_, _, _, _, _, s.write_grows b u, rfl⟩

theorem State.setMonitor_reach (c : Channel) (m : Monitor) (s : State) : s.TableReach (s.setMonitor c m) :=
  ⟨_, _, _, _, _, .refl, rfl⟩

theorem State.storeEntry_reach (e : Entry) (s : State) : s.TableReach (s.storeEntry e) := ⟨_, _, _, _, _, .refl, rfl⟩

theorem State.dropEntry_reach (o : StationId) (c : Channel) (s : State) : s.TableReach (s.dropEntry o c) :=
  ⟨_, _, _, _, _, .refl, rfl⟩

theorem State.withQueue_reach (q : List QueueEntry) (s : State) : s.TableReach { s with queue := q } :=
  ⟨_, _, _, _, _, .refl, rfl⟩

theorem State.handToAnnunciation_reach (o : StationId) (s : State) : s.TableReach (s.handToAnnunciation o) := by
  unfold State.handToAnnunciation
  split
  · exact ⟨_, _, _, _, _, .refl, rfl⟩
  · exact .refl s

theorem State.makeStale_reach (o : StationId) (c : Channel) (s : State) : s.TableReach (s.makeStale o c) :=
  ⟨_, _, _, _, _, s.makeStale_grows o c, s.makeStale_frame o c⟩

theorem State.addEntry_reach (e : Entry) (s : State) : s.TableReach (s.addEntry e) :=
  .trans ⟨_, _, _, _, _, .arrive _ _ _ .refl, rfl⟩ (State.handToAnnunciation_reach _ _)

theorem State.changeEntry_reach (e : Entry) (s : State) : s.TableReach (s.changeEntry e) :=
  .trans ⟨_, _, _, _, _, .arrive _ _ _ .refl, rfl⟩ (State.handToAnnunciation_reach _ _)

theorem State.removeEntry_reach (e : Entry) (l : Level) (q : Seq) (r : RemovalReason) (k : Option StationId) (s : State) :
    s.TableReach (s.removeEntry e l q r k) :=
  .trans ⟨_, _, _, _, _, .arrive _ _ _ .refl, rfl⟩ (State.handToAnnunciation_reach _ _)

theorem State.clearEntry_reach (e : Entry) (r : Record) (s : State) : s.TableReach (s.clearEntry e r) :=
  State.removeEntry_reach _ _ _ _ _ s

theorem State.passAck_reach (o : StationId) (c : Channel) (k : StationId) (s : State) : s.TableReach (s.passAck o c k) := by
  unfold State.passAck
  split
  · exact ⟨_, _, _, _, _, .refl, rfl⟩
  · exact .refl s

theorem State.makeStaleAll_reach (keys : List (StationId × Channel)) (s : State) : s.TableReach (s.makeStaleAll keys) := by
  induction keys generalizing s with
  | nil => exact .refl s
  | cons k ks ih => exact .trans (State.makeStale_reach k.1 k.2 s) (ih _)

theorem State.removeAll_reach (es : List Entry) (r : RemovalReason) (s : State) : s.TableReach (s.removeAll es r) := by
  induction es generalizing s with
  | nil => exact .refl s
  | cons e es ih => exact .trans (State.removeEntry_reach e _ _ _ _ s) (ih _)

theorem State.adoptEntry_reach (c : Channel) (r : Record) (s : State) : s.TableReach (s.adoptEntry c r) := by
  unfold State.adoptEntry
  split
  · split
    · exact State.addEntry_reach _ s
    · exact .refl s
  · split
    · exact .trans (State.clearEntry_reach _ _ s) (State.makeStale_reach _ _ _)
    · exact .trans (State.changeEntry_reach _ s) (State.makeStale_reach _ _ _)

theorem State.adopt_reach (c : Channel) (y : Level) (cause : FaultCause) (s : State) : s.TableReach (s.adopt c y cause) :=
  .trans (.trans (State.setMonitor_reach _ _ s) (State.adoptEntry_reach _ _ _)) (State.withQueue_reach _ _)

theorem State.faultEvent_reach (c : Channel) (cause : FaultCause) (s : State) : s.TableReach (s.faultEvent c cause) := by
  unfold State.faultEvent
  split
  · exact State.setMonitor_reach _ _ s
  · exact State.adopt_reach c _ cause s

theorem State.classify_reach (c : Channel) (s : State) : s.TableReach (s.classify c) := by
  unfold State.classify
  simp only
  split
  · split
    · exact .trans (State.setMonitor_reach _ _ s) (State.adopt_reach _ _ _ _)
    · exact State.setMonitor_reach _ _ s
  · exact State.setMonitor_reach _ _ s

theorem State.sampleArrival_reach (w : BitVec 16) (s : State) : s.TableReach (s.sampleArrival w) := by
  unfold State.sampleArrival
  simp only
  split
  · exact .trans (State.setMonitor_reach _ _ s) (State.faultEvent_reach _ _ _)
  · exact .trans (.trans (State.setMonitor_reach _ _ s) (State.setMonitor_reach _ _ _)) (State.classify_reach _ _)

theorem State.offerWord_reach (w : BitVec 16) (s : State) : s.TableReach (s.offerWord w) := by
  unfold State.offerWord
  split
  · exact State.sampleArrival_reach w s
  · exact .refl s

theorem State.staleExpiry_reach (c : Channel) (s : State) : s.TableReach (s.staleExpiry c) := by
  unfold State.staleExpiry
  split
  · exact .trans (State.setMonitor_reach _ _ s) (State.faultEvent_reach _ _ _)
  · exact .refl s

theorem State.setShelved_reach (c : Channel) (flag : Bool) (s : State) : s.TableReach (s.setShelved c flag) := by
  unfold State.setShelved
  simp only
  split
  · exact .refl s
  · split
    · exact State.setMonitor_reach _ _ s
    · exact .trans (.trans (.trans (State.setMonitor_reach _ _ s) (State.changeEntry_reach _ _)) (State.makeStale_reach _ _ _))
        (State.withQueue_reach _ _)

theorem State.purge_reach (o : StationId) (s : State) : s.TableReach (s.purge o) :=
  .trans (State.removeAll_reach _ _ s) (State.makeStaleAll_reach _ _)

theorem State.setAcked_reach (e : Entry) (k : StationId) (s : State) : s.TableReach (s.setAcked e k) :=
  .trans (.trans ⟨_, _, _, _, _, .arrive _ _ _ .refl, rfl⟩ (State.handToAnnunciation_reach e.origin _)) (State.passAck_reach _ _ _ _)

theorem State.removeAcked_reach (e : Entry) (k : StationId) (s : State) : s.TableReach (s.removeAcked e k) := by
  have h := State.TableReach.trans (State.removeEntry_reach e e.level e.seq .ackedAfterClear (some k) s)
    (State.passAck_reach e.origin e.channel k _)
  unfold State.removeAcked
  simp only
  split
  · exact h
  · exact .trans h (State.makeStale_reach _ _ _)

theorem State.applyAck_reach (k target : StationId) (c : Channel) (q : Seq) (s : State) :
    s.TableReach (s.applyAck k target c q) := by
  unfold State.applyAck
  split
  · exact .refl s
  · split
    · split
      · exact State.setAcked_reach _ k s
      · exact State.removeAcked_reach _ k s
    · exact .refl s

theorem State.createRemote_reach (o : StationId) (c : Channel) (r : Record) (s : State) :
    s.TableReach (s.createRemote o c r) := by
  unfold State.createRemote State.admitNewcomer
  simp only
  split
  · exact State.addEntry_reach _ s
  · split
    · exact State.addEntry_reach _ s
    · split
      · exact .trans (.trans (.trans (State.dropEntry_reach _ _ s) (State.write_reach _ _ _)) (State.addEntry_reach _ _))
          (State.makeStale_reach _ _ _)
      · exact ⟨_, _, _, _, _, .arrive _ _ _ .refl, rfl⟩

theorem State.overwriteEntry_reach (e : Entry) (r : Record) (s : State) : s.TableReach (s.overwriteEntry e r) :=
  .trans (State.changeEntry_reach _ s) (State.makeStale_reach _ _ _)

theorem State.applyRaise_reach (o : StationId) (c : Channel) (r : Record) (s : State) : s.TableReach (s.applyRaise o c r) := by
  unfold State.applyRaise
  split
  · exact State.createRemote_reach o c r s
  · split
    · exact State.overwriteEntry_reach _ r s
    · exact .refl s

theorem State.applyClear_reach (o : StationId) (c : Channel) (r : Record) (s : State) : s.TableReach (s.applyClear o c r) := by
  unfold State.applyClear
  split
  · split
    · exact .refl s
    · exact State.createRemote_reach o c r s
  · split
    · split
      · exact .trans (State.clearEntry_reach _ r s) (State.makeStale_reach _ _ _)
      · exact State.overwriteEntry_reach _ r s
    · exact .refl s

theorem State.applyState_reach (o : StationId) (c : Channel) (r : Record) (s : State) : s.TableReach (s.applyState o c r) := by
  unfold State.applyState
  split
  · exact State.applyRaise_reach o c r s
  · exact State.applyClear_reach o c r s

theorem State.applyReplay_reach (o : StationId) (g : BitVec 6) (w : BitVec 3) (p : BitVec 14) (s : State) :
    s.TableReach (s.applyReplay o g w p) := by
  unfold State.applyReplay
  simp only
  refine .trans (.trans (.trans ?_ (State.removeAll_reach _ _ _)) (State.withQueue_reach _ _)) (State.makeStaleAll_reach _ _)
  split
  · exact State.write_reach _ _ s
  · exact .refl s

theorem State.applyFrame_reach (o : StationId) (f : Frame) (s : State) : s.TableReach (s.applyFrame o f) := by
  unfold State.applyFrame
  split
  · exact State.applyRaise_reach o _ _ s
  · exact State.applyClear_reach o _ _ s
  · exact State.applyState_reach o _ _ s
  · exact .refl s
  · exact .refl s
  · exact State.applyAck_reach o _ _ _ s
  · exact State.applyReplay_reach o _ _ _ s

theorem State.applyOwnFrame_reach (f : Flight) (s : State) : s.TableReach (s.applyOwnFrame f) := by
  unfold State.applyOwnFrame
  split
  · exact State.applyAck_reach _ _ _ _ s
  · exact .refl s

/-! ### The roster and the census -/

theorem State.join_frame (k : StationId) (s : State) :
    s.join k = { s with table := (s.join k).table, queue := (s.join k).queue, feed := (s.join k).feed } := rfl

theorem State.peerLeaves_frame (k : StationId) (s : State) :
    s.peerLeaves k = { s with table := (s.peerLeaves k).table, feed := (s.peerLeaves k).feed } := rfl

theorem State.takeSlot_frame (map : IdSet) (s : State) (k : StationId) :
    s.takeSlot map k =
      { s with
        roster := (s.takeSlot map k).roster, table := (s.takeSlot map k).table, queue := (s.takeSlot map k).queue
        feed := (s.takeSlot map k).feed } := by
  unfold State.takeSlot State.slotDriven State.slotReleased
  simp only
  split
  · split <;> rfl
  · split
    · split <;> rfl
    · rfl

theorem State.takeSlots_frame (map : IdSet) (ks : List StationId) (s : State) :
    ks.foldl (State.takeSlot map) s =
      { s with
        roster := (ks.foldl (State.takeSlot map) s).roster, table := (ks.foldl (State.takeSlot map) s).table
        queue := (ks.foldl (State.takeSlot map) s).queue, feed := (ks.foldl (State.takeSlot map) s).feed } := by
  induction ks generalizing s with
  | nil => rfl
  | cons k ks ih =>
    rw [List.foldl_cons, ih, State.takeSlot_frame]

theorem State.takeCensus_frame (map : IdSet) (s : State) :
    s.takeCensus map =
      { s with
        roster := (s.takeCensus map).roster, table := (s.takeCensus map).table, queue := (s.takeCensus map).queue
        feed := (s.takeCensus map).feed } :=
  State.takeSlots_frame map _ s

theorem State.takeSlot_grows (map : IdSet) (s : State) (k : StationId) :
    s.feed.Grows s.image.watermark (s.takeSlot map k).feed := by
  unfold State.takeSlot State.slotDriven State.slotReleased
  simp only
  split
  · split
    · exact .arrive _ _ _ .refl
    · exact .refl
  · split
    · split
      · exact .arrive _ _ _ .refl
      · exact .refl
    · exact .refl

theorem State.takeSlots_grows (map : IdSet) (ks : List StationId) (s : State) :
    s.feed.Grows s.image.watermark (ks.foldl (State.takeSlot map) s).feed := by
  induction ks generalizing s with
  | nil => exact .refl
  | cons k ks ih =>
    have himage : (s.takeSlot map k).image = s.image := by rw [State.takeSlot_frame]
    exact .trans (State.takeSlot_grows map s k) (himage ▸ ih (s.takeSlot map k))

theorem State.takeCensus_grows (map : IdSet) (s : State) : s.feed.Grows s.image.watermark (s.takeCensus map).feed :=
  State.takeSlots_grows map _ s

theorem State.countListen_frame (s : State) :
    s.countListen =
      { s with
        station := s.countListen.station, listenCount := s.countListen.listenCount
        silenceTimer := s.countListen.silenceTimer, queue := s.countListen.queue } := by
  unfold State.countListen
  split
  · simp only
    split <;> rfl
  · rfl

/-! ### The requests -/

theorem State.startTimers_frame (cs : List Channel) (s : State) :
    cs.foldl State.startTimer s = { s with monitors := (cs.foldl State.startTimer s).monitors } := by
  induction cs generalizing s with
  | nil => rfl
  | cons c cs ih =>
    rw [List.foldl_cons, ih]
    unfold State.startTimer
    split <;> rfl

theorem State.startUp_frame (s : State) :
    s.startUp = ({ s with
      monitors := (channelOrder.foldl State.startTimer s).monitors, isSealed := true
      line := { s.line with position := .seek, drivenRun := 0, releasedRun := 0, idleRun := 0 } } : State).enterListen := by
  unfold State.startUp
  simp only
  rw [State.startTimers_frame]

end Sys2Proof.Machine
end

section
/-! PROOFS. What every command is made of, and with it one principle for everything that every step keeps: the inputs change, a reset
ends, a request is served, a word is offered, an event of the line or of a timer is taken, or a bit time passes. -/

namespace Sys2Proof.Machine

/-- The event of the line, of a frame or of a timer that a command tells (chapters 02, 05 to 07). -/
def eventOf : Instr → Option (State → State)
  | .staleTimerExpiry c => some (State.staleExpiry c)
  | .roundTimerExpiry => some State.roundExpiry
  | .silenceTimerExpiry => some State.loneStart
  | .markRecognised => some State.recogniseMark
  | .markUnrecognised => some State.missOwnMark
  | .markTrailingEdge => some State.trailingEdge
  | .censusEnd slots first => some (State.finishCensus slots first)
  | .sweepStart => some State.startSweep
  | .sweepEnd read => some (State.finishSweep read)
  | .windowStart driven => some (State.startWindow driven)
  | .contestLost bit => some (State.loseContest bit)
  | .lineFaultAbandon bit first => some (State.lineFault bit first)
  | .keyWon => some State.winKey
  | .readBackMismatch bit first => some (State.readBackMismatch bit first)
  | .frameSentWhole => some State.sendWhole
  | .frameJudged read => some (State.judge read)
  | .receiptSlot => some State.driveReceipt
  | .receiptFieldEnd slots => some (State.finishReceipts slots)
  | .roundEnd => some State.finishRound
  | .lineStuck => some State.findStuck
  | .lineRestored => some State.restoreLine
  | _ => none

/-- The bytes on SDI that a host command stands for (R172). -/
def bytesOf : Instr → List Byte
  | .badCommand code => [code]
  | .status => [HostCommand.status.code]
  | .configWrite item value => [HostCommand.configWrite.code, item, value.extractLsb' 8 8, value.extractLsb' 0 8]
  | .configRead item => [HostCommand.configRead.code, item]
  | .start => [HostCommand.start.code]
  | .restart => [HostCommand.restart.code]
  | .quiet => [HostCommand.quiet.code]
  | .resume => [HostCommand.resume.code]
  | .view rank => [HostCommand.view.code, rank]
  | .entry origin channel => [HostCommand.entry.code, origin, channel]
  | .ack origin channel seq => [HostCommand.ack.code, origin, channel, seq]
  | .shelve channel => [HostCommand.shelve.code, channel]
  | .unshelve channel => [HostCommand.unshelve.code, channel]
  | .purge origin => [HostCommand.purge.code, origin]
  | .feedPeek => [HostCommand.feedPeek.code]
  | .feedRelease count => [HostCommand.feedRelease.code, count]
  | .roster id => [HostCommand.roster.code, id]
  | .queue slot => [HostCommand.queue.code, slot]
  | .channel channel => [HostCommand.channel.code, channel]
  | .countersRead => [HostCommand.countersRead.code]
  | .countersClear => [HostCommand.countersClear.code]
  | _ => []

theorem exec_event {c : Instr} {f : State → State} (h : eventOf c = some f) (s : State) :
    exec c s = .next (s.unlessRst f) := by
  cases c <;> cases h <;> rfl

theorem exec_hostRequest {c : Instr} (h : isHostRequest c = true) (s : State) :
    exec c s = .next (s.clockRequest (bytesOf c)) := by
  cases c <;> first | rfl | cases h

theorem exec_powerOn (straps : BitVec 5) (scs cfs : Bool) (s : State) :
    exec (.powerOn straps scs cfs) s = .next (({ s with scsPin := scs, cfsPin := cfs } : State).resetAll straps) := rfl

theorem exec_rstAsserted (s : State) : exec .rstAsserted s = .next (s.unlessRst State.assertRst) := rfl

theorem exec_rstReleased (straps : BitVec 5) (s : State) :
    exec (.rstReleased straps) s = .next (s.resetAll straps) := rfl

theorem exec_scsAsserted (s : State) :
    exec .scsAsserted s = .next (({ s with scsPin := true } : State).unlessRst (fun s =>
      if s.port.phase = .idle then { s with port := { Port.reset with phase := .command, aborts := s.port.aborts } }
      else s)) := rfl

theorem exec_scsReleased (bits : List Bool) (s : State) :
    exec (.scsReleased bits) s = .next (({ s with scsPin := false } : State).unlessRst (fun s =>
      { s.clockBits bits with port := (s.clockBits bits).port.release })) := rfl

theorem exec_cfsAsserted (s : State) :
    exec .cfsAsserted s = .next (({ s with cfsPin := true } : State).unlessRst State.openFrame) := rfl

theorem exec_wordClose (bits : List Bool) (s : State) :
    exec (.wordClose bits) s = .next (({ s with cfsPin := false } : State).unlessRst (State.closeWord bits)) := rfl

/-! ### What a request can do -/

/-- What a request makes of the station of its block: every way in which one that is not refused can end (chapters 01 to 10). -/
inductive State.Served (s : State) : State → Prop
  | same : s.Served s
  | stored (i : Item) (v : Nat) (hsetup : s.station = .setup) (hrange : i.inRange v = true) : s.Served (s.storeItem i v)
  | started (hsetup : s.station = .setup) (hpass : s.image.failingItem s.id = none) : s.Served s.startUp
  | restarted : s.Served { s.resetBlocks with port := { s.port with restartPending := true } }
  | quieted (hsetup : s.station ≠ .setup) (hquiet : s.station ≠ .quiet) : s.Served (s.enterQuiet .host .lost)
  | resumed (hquiet : s.station = .quiet) (hup : s.line.lineState = .up) : s.Served s.enterListen
  | resumedStuck (hquiet : s.station = .quiet) (hstuck : s.line.lineState = .stuck) :
      s.Served { s with station := .stuck, cause := .none }
  | acknowledging (e : Entry) (slot : Fin 15) (hsetup : s.station ≠ .setup) (hfind : s.table.find e.origin e.channel = some e)
      (hnone : s.queue.any (fun q => q.acknowledges e.origin e.channel) = false) (hfree : freeAckSlot s.queue = some slot) :
      s.Served
        { s with queue := s.queue ++ [QueueEntry.fresh slot (.ack e.origin e.channel e.seq e.severity)] }
  | shelved (c : Channel) (flag : Bool) (hsetup : s.station ≠ .setup) : s.Served (s.setShelved c flag)
  | purged (o : StationId) (hsetup : s.station ≠ .setup) (hown : o ≠ s.id) : s.Served (s.purge o)
  | released (n : Nat) (hpos : 0 < n) : s.Served { s with feed := s.feed.release s.image.watermark s.line.round n }
  | cleared : s.Served s.countersCleared

theorem serveConfigWrite_served (item : Byte) (value : BitVec 16) (s : State) :
    s.Served (serveConfigWrite item value s).state := by
  unfold serveConfigWrite
  split
  · exact .same
  · rename_i hsetup
    split
    · exact .same
    · exact .same
    · split
      · exact .stored _ _ (not_not.mp hsetup) ‹_›
      · exact .same

theorem serveStart_served (s : State) : s.Served (serveStart s).state := by
  unfold serveStart
  split
  · exact .same
  · split
    · exact .same
    · exact .started (not_not.mp ‹_›) ‹_›

theorem serveQuiet_served (s : State) : s.Served (serveQuiet s).state := by
  unfold serveQuiet
  split
  · exact .same
  · exact .same
  all_goals exact .quieted (by simp [*]) (by simp [*])

theorem serveResume_served (s : State) : s.Served (serveResume s).state := by
  unfold serveResume
  split
  · exact .same
  · split
    · exact .resumed (not_not.mp ‹_›) ‹_›
    · exact .resumedStuck (not_not.mp ‹_›) ‹_›

theorem serveAck_served (o c q : Byte) (s : State) : s.Served (serveAck o c q s).state := by
  unfold serveAck
  split
  · exact .same
  · rename_i hsetup
    split
    · exact .same
    · unfold State.requestAck
      split
      · exact .same
      · rename_i e hfind
        obtain ⟨_, ho, hc⟩ := Table.find_some hfind
        split
        · exact .same
        · rename_i hseq
          split
          · exact .same
          · split
            · exact .same
            · rename_i hany
              split
              · exact .same
              · rw [← ho, ← hc] at hfind hany ⊢
                rw [← not_not.mp hseq]
                exact .acknowledging e _ hsetup hfind (Bool.eq_false_iff.mpr hany) ‹_›

theorem serveShelving_served (c : Byte) (flag : Bool) (s : State) : s.Served (serveShelving c flag s).state := by
  unfold serveShelving
  split
  · exact .same
  · split
    · exact .same
    · exact .shelved _ flag ‹_›

theorem servePurge_served (o : Byte) (s : State) : s.Served (servePurge o s).state := by
  unfold servePurge
  simp only
  split
  · exact .same
  · split
    · exact .same
    · split
      · exact .same
      · split
        · exact .same
        · exact .purged _ ‹_› ‹_›

theorem serveFeedRelease_served (n : Byte) (s : State) : s.Served (serveFeedRelease n s).state := by
  unfold serveFeedRelease
  split
  · exact .same
  · exact .released _ (by omega)

/-- The requests that only read leave the station as it is. -/
theorem serve_reads (c : HostCommand) (args : List Byte) (s : State)
    (h : c ∈ [HostCommand.status, .configRead, .view, .entry, .feedPeek, .roster, .queue, .channel, .countersRead]) :
    (serve c args s).state = s := by
  simp only [List.mem_cons, List.not_mem_nil, or_false] at h
  rcases h with rfl | rfl | rfl | rfl | rfl | rfl | rfl | rfl | rfl
  · rfl
  · simp only [serve, serveConfigRead]; split <;> rfl
  · simp only [serve, serveView]; split <;> rfl
  · simp only [serve, serveEntry]; split
    · rfl
    · split <;> rfl
  · simp only [serve, serveFeedPeek]; split <;> rfl
  · simp only [serve, serveRoster]; split <;> rfl
  · simp only [serve, serveQueue]; split
    · rfl
    · split <;> rfl
  · simp only [serve, serveChannel]; split <;> rfl
  · rfl

theorem serve_served (c : HostCommand) (args : List Byte) (s : State) : s.Served (serve c args s).state := by
  have hread := serve_reads c args s
  cases c with
  | configWrite => exact serveConfigWrite_served _ _ s
  | start => exact serveStart_served s
  | restart => exact .restarted
  | quiet => exact serveQuiet_served s
  | resume => exact serveResume_served s
  | ack => exact serveAck_served _ _ _ s
  | shelve => exact serveShelving_served _ true s
  | unshelve => exact serveShelving_served _ false s
  | purge => exact servePurge_served _ s
  | feedRelease => exact serveFeedRelease_served _ s
  | countersClear => exact .cleared
  | _ => rw [hread (by decide)]; exact .same

theorem State.Served.rst {s t : State} (h : s.Served t) : t.rst = s.rst := by
  cases h with
  | quieted => rw [State.enterQuiet_frame]
  | started => rw [State.startUp_frame]; rfl
  | shelved c flag => exact (State.setShelved_reach c flag s).rst
  | purged o => exact (State.purge_reach o s).rst
  | _ => rfl

/-! ### What a bit, a byte and a frame can do -/

/-- A bit clocked in changes the port alone, or is the last of a request that its block takes (R171 to R173). -/
theorem State.clockBit_cases (s : State) (bit : Bool) :
    (∃ p, s.clockBit bit = { s with port := p }) ∨
      ∃ p c args q, q.phase = .response ∧ s.clockBit bit = { (serve c args { s with port := p }).state with port := q } := by
  have hrequest (c : HostCommand) (args : List Byte) (p : Port) :
      ∃ p' c' args' q, q.phase = .response ∧ State.takeRequest c args { s with port := p } =
        { (serve c' args' { s with port := p' }).state with port := q } :=
    ⟨{ p with command := some c, args := args }, c, args, _, rfl, rfl⟩
  have hbyte (b : Byte) (p : Port) :
      (∃ q, State.takeByte b { s with port := p } = { s with port := q }) ∨
        ∃ p' c args q, q.phase = .response ∧ State.takeByte b { s with port := p } =
          { (serve c args { s with port := p' }).state with port := q } := by
    unfold State.takeByte
    split
    · unfold State.takeCommandByte
      split
      · exact .inl ⟨_, rfl⟩
      · split
        · exact .inr (hrequest _ _ p)
        · exact .inl ⟨_, rfl⟩
    · unfold State.takeArgumentByte
      split
      · exact .inl ⟨p, rfl⟩
      · simp only
        split
        · exact .inr (hrequest _ _ p)
        · exact .inl ⟨_, rfl⟩
    all_goals exact .inl ⟨p, rfl⟩
  have htaken : (∃ p, s.takeBit bit = { s with port := p }) ∨
      ∃ p c args q, q.phase = .response ∧ s.takeBit bit = { (serve c args { s with port := p }).state with port := q } := by
    unfold State.takeBit
    simp only
    split
    · exact hbyte _ _
    · exact .inl ⟨_, rfl⟩
  unfold State.clockBit
  split
  · exact htaken
  · exact htaken
  · exact .inl ⟨_, rfl⟩
  all_goals exact .inl ⟨s.port, rfl⟩

/-- What the port and every request keep, the bits of a transaction keep. -/
theorem State.clockBits_keeps {P : State → Prop} (hport : ∀ (s : State) (p : Port), P s → P { s with port := p })
    (hserve : ∀ s t : State, s.rst = false → P s → s.Served t → P t) (bits : List Bool) (s : State) (hrst : s.rst = false)
    (h : P s) : P (s.clockBits bits) := by
  induction bits generalizing s with
  | nil => exact h
  | cons bit bits ih =>
    rw [State.clockBits, List.foldl_cons]
    obtain ⟨p, hp⟩ | ⟨p, c, args, q, _, hp⟩ := s.clockBit_cases bit
    · rw [hp]
      exact ih { s with port := p } hrst (hport s p h)
    · rw [hp]
      have hserved := serve_served c args { s with port := p }
      exact ih _ (hserved.rst.trans hrst) (hport _ q (hserve { s with port := p } _ hrst (hport s p h) hserved))

/-- What the bits of a transaction keep, the bytes of a request keep. -/
theorem State.clockRequest_keeps {P : State → Prop} (hport : ∀ (s : State) (p : Port), P s → P { s with port := p })
    (hserve : ∀ s t : State, s.rst = false → P s → s.Served t → P t) (bytes : List Byte) (s : State) (h : P s) :
    P (s.clockRequest bytes) := by
  refine State.unlessRst_cases h fun hrst => ?_
  have hbits : bytes.foldl State.clockByte s = s.clockBits (bytes.flatMap msbBits) := by
    simp only [State.clockBits, List.foldl_flatMap]
    rfl
  rw [hbits]
  exact State.clockBits_keeps hport hserve _ s hrst h

/-- The close of a frame counts an error, offers a word to the monitors, or does neither (R18 to R20). -/
theorem State.closeWord_cases (bits : List Bool) (s : State) :
    ∃ a n, s.closeWord bits = { s with assembler := a, framingErrors := n } ∨
      ∃ w, s.closeWord bits = State.offerWord w { s with assembler := a, framingErrors := n } := by
  unfold State.closeWord State.closeFrame
  simp only
  split
  · split
    · exact ⟨_, _, .inr ⟨_, rfl⟩⟩
    · exact ⟨_, _, .inl rfl⟩
  · exact ⟨_, _, .inl rfl⟩

/-! ### The principle -/

/-- A property that the inputs and the port do not touch, that a reset gives, and that RST, every request, every word, every
event and a bit time keep outside RST, is kept by every step. -/
theorem step_keeps {P : State → Prop}
    (hinputs : ∀ (s : State) (pending : List Instr) (scs cfs : Bool) (port : Port) (a : Assembler) (n : Counter), P s →
      P { s with pending := pending, scsPin := scs, cfsPin := cfs, port := port, assembler := a, framingErrors := n })
    (hreset : ∀ (s : State) (straps : BitVec 5), P (s.resetAll straps))
    (hrst : ∀ s : State, P s → P s.assertRst)
    (hserve : ∀ s t : State, s.rst = false → P s → s.Served t → P t)
    (hword : ∀ (w : BitVec 16) (s : State), s.rst = false → P s → P (s.offerWord w))
    (hevent : ∀ (c : Instr) (f : State → State) (s : State), eventOf c = some f → s.rst = false → P s → P (f s))
    (htick : ∀ s : State, s.rst = false → P s → P s.tick)
    {s t : State} (h : P s) (hstep : step s = .next t) : P t := by
  have hport (s : State) (p : Port) (h : P s) : P { s with port := p } := hinputs s s.pending _ _ p _ _ h
  have hcommand (c : Instr) (s : State) (h : P s) (hexec : exec c s = .next t) : P t := by
    cases hhost : isHostRequest c with
    | true =>
      rw [exec_hostRequest hhost] at hexec
      injection hexec with hexec
      exact hexec ▸ State.clockRequest_keeps hport hserve _ s h
    | false =>
      cases hevt : eventOf c with
      | some f =>
        rw [exec_event hevt] at hexec
        injection hexec with hexec
        exact hexec ▸ State.unlessRst_cases h fun hrst => hevent c f s hevt hrst h
      | none =>
        cases c with
        | powerOn straps scs cfs => injection hexec with hexec; exact hexec ▸ hreset _ straps
        | rstReleased straps => injection hexec with hexec; exact hexec ▸ hreset _ straps
        | rstAsserted => injection hexec with hexec; exact hexec ▸ State.unlessRst_cases h fun _ => hrst s h
        | scsAsserted =>
          injection hexec with hexec
          refine hexec ▸ State.unlessRst_cases (hinputs s _ _ _ _ _ _ h) fun _ => ?_
          simp only
          split
          · exact hinputs s _ _ _ _ _ _ h
          · exact hinputs s _ _ _ _ _ _ h
        | scsReleased bits =>
          injection hexec with hexec
          refine hexec ▸ State.unlessRst_cases (hinputs s _ _ _ _ _ _ h) fun hoff => ?_
          exact hport _ _ (State.clockBits_keeps hport hserve bits _ hoff (hinputs s _ _ _ _ _ _ h))
        | cfsAsserted =>
          injection hexec with hexec
          refine hexec ▸ State.unlessRst_cases (hinputs s _ _ _ _ _ _ h) fun _ => ?_
          unfold State.openFrame
          split
          · exact hinputs s _ _ _ _ _ _ h
          · exact hinputs s _ _ _ _ _ _ h
        | wordClose bits =>
          injection hexec with hexec
          refine hexec ▸ State.unlessRst_cases (hinputs s _ _ _ _ _ _ h) fun hoff => ?_
          obtain ⟨a, n, hc | ⟨w, hc⟩⟩ := State.closeWord_cases bits { s with cfsPin := false }
          · exact hc ▸ hinputs s _ _ _ _ _ _ h
          · exact hc ▸ hword w _ hoff (hinputs s _ _ _ _ _ _ h)
        | _ => first | exact Bool.noConfusion hhost | exact absurd hevt (Option.some_ne_none _)
  cases hq : s.pending with
  | nil =>
    rw [step_idle hq] at hstep
    injection hstep with hstep
    refine hstep ▸ ?_
    cases hoff : s.rst with
    | false => exact htick s hoff h
    | true => exact (State.tick_rst hoff).symm ▸ h
  | cons c rest =>
    rw [step_front hq] at hstep
    exact hcommand c _ (hinputs s rest _ _ _ _ _ h) hstep

end Sys2Proof.Machine
end

section
/-! PROOFS. What every event of the line, of a frame and of a timer leaves alone: the id, the image, RST, and the records that the feed
holds. -/

namespace Sys2Proof.Machine

/-- The station goes on with its id and its image, and its feed takes records. -/
def State.GoesOn (s t : State) : Prop :=
  t.id = s.id ∧ t.image = s.image ∧ t.rst = s.rst ∧ s.feed.Grows s.image.watermark t.feed

theorem State.GoesOn.refl (s : State) : s.GoesOn s := ⟨rfl, rfl, rfl, .refl⟩

theorem State.GoesOn.trans {s t u : State} (hst : s.GoesOn t) (htu : t.GoesOn u) : s.GoesOn u := by
  obtain ⟨hid, himage, hrst, hfeed⟩ := hst
  obtain ⟨hid', himage', hrst', hfeed'⟩ := htu
  exact ⟨hid'.trans hid, himage'.trans himage, hrst'.trans hrst, hfeed.trans (himage ▸ hfeed')⟩

theorem State.TableReach.goesOn {s t : State} (h : s.TableReach t) : s.GoesOn t := ⟨h.id, h.image, h.rst, h.grows⟩

/-- What an event of the line leaves alone besides: the table, the monitors, the roster, the own contribution; and the pins follow
the own contribution, or show a sweep, or stay. -/
structure State.LineSide (s t : State) : Prop where
  goesOn : s.GoesOn t
  table : t.table = s.table
  monitors : t.monitors = s.monitors
  roster : t.roster = s.roster
  own : t.ann.own = s.ann.own
  pins : t.ann = s.ann ∨ t.ann.link = true ∨ t.ann.code = t.ann.own

theorem State.LineSide.trans {s t u : State} (hst : s.LineSide t) (htu : t.LineSide u) : s.LineSide u := by
  refine ⟨hst.goesOn.trans htu.goesOn, htu.table.trans hst.table, htu.monitors.trans hst.monitors,
    htu.roster.trans hst.roster, htu.own.trans hst.own, ?_⟩
  rcases htu.pins with h | h
  · rw [h]; exact hst.pins
  · exact .inr h

/-- The queue, the feed, the line engine and the station controller change, and no other block. -/
theorem State.lineSide_of (s : State) (station : StationState) (cause : QuietCause) (listenCount : Nat)
    (silenceTimer : Option Nat) (queue : List QueueEntry) (line : LineEngine) {feed : Feed}
    (h : s.feed.Grows s.image.watermark feed) :
    s.LineSide { s with
      station := station, cause := cause, listenCount := listenCount, silenceTimer := silenceTimer, queue := queue
      line := line, feed := feed } :=
  ⟨⟨rfl, rfl, rfl, h⟩, rfl, rfl, rfl, rfl, .inl rfl⟩

theorem State.LineSide.refl (s : State) : s.LineSide s := s.lineSide_of _ _ _ _ _ _ .refl

theorem State.takeOutcome_lineSide (o : WindowOutcome) (s : State) : s.LineSide (s.takeOutcome o) := by
  have hgrows := s.takeOutcome_grows o
  rw [State.takeOutcome_frame]
  exact State.lineSide_of _ _ _ _ _ _ _ hgrows

theorem State.leaveGroup_lineSide (o : WindowOutcome) (s : State) : s.LineSide (s.leaveGroup o) := by
  have hgrows := s.leaveGroup_grows o
  rw [State.leaveGroup_frame]
  exact State.lineSide_of _ _ _ _ _ _ _ hgrows

theorem State.releaseLink_lineSide (s : State) : s.LineSide s.releaseLink :=
  ⟨⟨rfl, rfl, rfl, .refl⟩, rfl, rfl, rfl, rfl, .inr (.inr rfl)⟩

theorem State.enterQuiet_lineSide (c : QuietCause) (o : WindowOutcome) (s : State) : s.LineSide (s.enterQuiet c o) :=
  .trans (s.leaveGroup_lineSide o) (.trans (State.lineSide_of (s.leaveGroup o) .quiet c _ none _ _ (.arrive _ _ _ .refl))
    (State.releaseLink_lineSide _))

theorem State.countAbandon_lineSide (s : State) : s.LineSide s.countAbandon := State.lineSide_of _ _ _ _ _ _ _ .refl

theorem State.abandon_lineSide (first : TakenFirst) (s : State) : s.LineSide (s.abandon first) := by
  cases first
  · have htaken : s.LineSide (s.takeOutcome .abandoned).countAbandon :=
      .trans (s.takeOutcome_lineSide _) (State.countAbandon_lineSide _)
    simp only [State.abandon]
    split
    · exact .trans htaken (State.enterQuiet_lineSide _ _ _)
    · exact htaken
  · simp only [State.abandon]
    split
    · exact .trans s.countAbandon_lineSide (State.enterQuiet_lineSide _ _ _)
    · exact .trans s.countAbandon_lineSide (State.takeOutcome_lineSide _ _)

theorem State.takeCensus_goesOn (map : IdSet) (s : State) : s.GoesOn (s.takeCensus map) := by
  refine ⟨?_, ?_, ?_, s.takeCensus_grows map⟩ <;> rw [State.takeCensus_frame]

theorem State.countListen_goesOn (s : State) : s.GoesOn s.countListen := by
  refine ⟨?_, ?_, ?_, ?_⟩ <;> rw [State.countListen_frame]
  exact .refl

theorem State.enterStuck_lineSide (s : State) : s.LineSide s.enterStuck := by
  unfold State.enterStuck
  split
  · exact .refl s
  · exact .trans (State.lineSide_of s .stuck .none _ none _ _ .refl) (State.releaseLink_lineSide _)

theorem State.takeSweep_lineSide (r : Code) (b : Bool) (s : State) : s.LineSide (s.takeSweep r b) := by
  unfold State.takeSweep
  split
  · exact ⟨⟨rfl, rfl, rfl, .refl⟩, rfl, rfl, rfl, rfl, .inr (.inl rfl)⟩
  · exact .refl s

theorem State.roundExpiry_lineSide (s : State) : s.LineSide s.roundExpiry := by
  unfold State.roundExpiry
  simp only
  split_ifs <;> exact State.lineSide_of _ _ _ _ _ _ _ .refl

theorem State.loneStart_lineSide (s : State) : s.LineSide s.loneStart := by
  unfold State.loneStart
  split <;> exact State.lineSide_of _ _ _ _ _ _ _ .refl

theorem State.recogniseMark_lineSide (s : State) : s.LineSide s.recogniseMark := by
  unfold State.recogniseMark
  split <;> exact State.lineSide_of _ _ _ _ _ _ _ .refl

theorem State.missOwnMark_lineSide (s : State) : s.LineSide s.missOwnMark := by
  unfold State.missOwnMark
  split <;> exact State.lineSide_of _ _ _ _ _ _ _ .refl

theorem State.trailingEdge_lineSide (s : State) : s.LineSide s.trailingEdge := by
  unfold State.trailingEdge
  split
  · split <;> exact State.lineSide_of _ _ _ _ _ _ _ .refl
  · exact .refl s

/-- The station past the census, with its map read and the listen count given (R109). -/
def State.pastCensus (slots : IdSet) (listenCount : Nat) (s : State) : State :=
  { s with line := s.line.endCensus s.image.groupSize slots, listenCount := listenCount }

/-- A census is complete in the census of a round that is followed; then the roster takes it, and it counts toward the end of
LISTEN, or is an id clash (R148, R153, R157). -/
theorem State.finishCensus_cases (slots : IdSet) (first : TakenFirst) (s : State) :
    (¬(s.follows = true ∧ s.line.position.inCensus = true) ∧ s.finishCensus slots first = s) ∨
      (s.follows = true ∧ s.line.position.inCensus = true ∧
        ((s.station = .listen ∧ hasId (slots &&& slotMask s.image.groupSize) s.id = true ∧
            ((first = .owner ∧ s.finishCensus slots first = State.enterQuiet .idClash .lost
                ((s.pastCensus slots (s.listenCount + 1)).takeCensus (slots &&& slotMask s.image.groupSize))) ∨
              (first = .controller ∧ s.finishCensus slots first =
                (State.enterQuiet .idClash .lost (s.pastCensus slots (s.listenCount + 1))).takeCensus
                  (slots &&& slotMask s.image.groupSize)))) ∨
          (¬(s.station = .listen ∧ hasId (slots &&& slotMask s.image.groupSize) s.id = true) ∧
            s.finishCensus slots first =
              ((s.pastCensus slots s.listenCount).takeCensus (slots &&& slotMask s.image.groupSize)).countListen))) := by
  by_cases hc : s.follows = true ∧ s.line.position.inCensus = true
  · refine .inr ⟨hc.1, hc.2, ?_⟩
    have hcond : (s.follows && s.line.position.inCensus) = true := Bool.and_eq_true_iff.mpr hc
    unfold State.finishCensus
    rw [if_pos hcond]
    by_cases hclash : s.station = .listen ∧ hasId (slots &&& slotMask s.image.groupSize) s.id = true
    · refine .inl ⟨hclash.1, hclash.2, ?_⟩
      cases first
      · exact .inl ⟨rfl, if_pos hclash⟩
      · exact .inr ⟨rfl, if_pos hclash⟩
    · exact .inr ⟨hclash, if_neg hclash⟩
  · exact .inl ⟨hc, if_neg (by simpa using hc)⟩

theorem State.pastCensus_goesOn (slots : IdSet) (n : Nat) (s : State) : s.GoesOn (s.pastCensus slots n) :=
  ⟨rfl, rfl, rfl, .refl⟩

theorem State.finishCensus_goesOn (slots : IdSet) (first : TakenFirst) (s : State) : s.GoesOn (s.finishCensus slots first) := by
  obtain ⟨_, h⟩ | ⟨_, _, ⟨_, _, ⟨_, h⟩ | ⟨_, h⟩⟩ | ⟨_, h⟩⟩ := s.finishCensus_cases slots first <;> rw [h]
  · exact .refl s
  · exact (s.pastCensus_goesOn slots _).trans ((State.takeCensus_goesOn _ _).trans (State.enterQuiet_lineSide _ _ _).goesOn)
  · exact (s.pastCensus_goesOn slots _).trans ((State.enterQuiet_lineSide _ _ _).goesOn.trans (State.takeCensus_goesOn _ _))
  · exact (s.pastCensus_goesOn slots _).trans ((State.takeCensus_goesOn _ _).trans (State.countListen_goesOn _))

theorem State.startSweep_lineSide (s : State) : s.LineSide s.startSweep := by
  unfold State.startSweep
  split <;> exact State.lineSide_of _ _ _ _ _ _ _ .refl

theorem State.finishSweep_lineSide (read : Code) (s : State) : s.LineSide (s.finishSweep read) := by
  unfold State.finishSweep
  split
  · split
    · exact .trans (State.lineSide_of _ _ _ _ _ _ _ .refl) (State.takeSweep_lineSide _ _ _)
    · exact .refl s
  · exact .refl s

theorem State.startWindow_lineSide (driven : Bool) (s : State) : s.LineSide (s.startWindow driven) := by
  unfold State.startWindow
  simp only
  split
  · split <;> exact State.lineSide_of _ _ _ _ _ _ _ .refl
  · exact .refl s

theorem State.loseContest_lineSide (bit : Nat) (s : State) : s.LineSide (s.loseContest bit) := by
  unfold State.loseContest
  split
  · exact .refl s
  · split
    · exact .trans (State.takeOutcome_lineSide _ s) (State.lineSide_of _ _ _ _ _ _ _ .refl)
    · exact .refl s

theorem State.lineFault_lineSide (bit : Nat) (first : TakenFirst) (s : State) : s.LineSide (s.lineFault bit first) := by
  unfold State.lineFault
  split
  · exact .refl s
  · split_ifs
    · exact .refl s
    · exact .trans (State.abandon_lineSide first s) (State.lineSide_of _ _ _ _ _ _ _ .refl)
    · exact .trans (State.abandon_lineSide first s) (State.lineSide_of _ _ _ _ _ _ _ .refl)
    · exact .refl s

theorem State.winKey_lineSide (s : State) : s.LineSide s.winKey := by
  unfold State.winKey
  split
  · exact .refl s
  · split <;> exact State.lineSide_of _ _ _ _ _ _ _ .refl

theorem State.readBackMismatch_lineSide (bit : Nat) (first : TakenFirst) (s : State) :
    s.LineSide (s.readBackMismatch bit first) := by
  unfold State.readBackMismatch
  split
  · exact .refl s
  · split
    · exact .trans (State.abandon_lineSide first s) (State.lineSide_of _ _ _ _ _ _ _ .refl)
    · exact .refl s

theorem NoticeKind.ofRank_eq_ack {n : Nat} : NoticeKind.ofRank n = some .ack ↔ n = 2 := by
  rcases n with _ | _ | _ | _ | _ | n <;> simp [NoticeKind.ofRank]

/-- The station whose frame is sent whole (R136). -/
def State.frameSent (f : Flight) (s : State) : State := { s with line := s.line.endFrame f }

/-- A frame sent whole ends the sending; an ACK is then applied to the own table (R58, R136). -/
theorem State.sendWhole_cases (s : State) :
    (s.flightAs .sender = none ∧ s.sendWhole = s) ∨
      ∃ f, s.flightAs .sender = some f ∧
        ((f.key.toNat / 32 % 8 = 2 ∧ ∃ o c q, readAck f.payload = .ack o c q ∧
            s.sendWhole = (s.frameSent f).applyAck s.id o c q) ∨
          (f.key.toNat / 32 % 8 ≠ 2 ∧ s.sendWhole = s.frameSent f)) := by
  unfold State.sendWhole
  cases hf : s.flightAs .sender with
  | none => exact .inl ⟨rfl, rfl⟩
  | some f =>
    refine .inr ⟨f, rfl, ?_⟩
    simp only [State.applyOwnFrame]
    by_cases h : f.key.toNat / 32 % 8 = 2
    · exact .inl ⟨h, _, _, _, rfl, by rw [h]; rfl⟩
    · refine .inr ⟨h, ?_⟩
      split
      · rename_i hrank _
        exact absurd (NoticeKind.ofRank_eq_ack.mp hrank) h
      · rfl

theorem State.sendWhole_goesOn (s : State) : s.GoesOn s.sendWhole := by
  have hsent (f : Flight) : s.GoesOn (s.frameSent f) := (State.lineSide_of _ _ _ _ _ _ _ .refl).goesOn
  obtain ⟨_, h⟩ | ⟨f, _, ⟨_, o, c, q, _, h⟩ | ⟨_, h⟩⟩ := s.sendWhole_cases <;> rw [h]
  · exact .refl s
  · exact (hsent f).trans (State.applyAck_reach _ _ _ _ _).goesOn
  · exact hsent f

/-- The station that has read a whole frame as a receiver and judged it (R139, R140). -/
def State.frameRead (read : BitVec 54) (j : Judgement) (s : State) : State :=
  State.judged j { s with line := (s.line.receive (msbBits read)).pastBit 54 }

/-- The station that counts a frame rejected for its CRC (R141). -/
def State.crcCounted (s : State) : State := { s with line := { s.line with crcErrors := satInc s.line.crcErrors } }

/-- The station that counts a frame rejected for its fields (R141). -/
def State.malformedCounted (s : State) : State := { s with line := { s.line with malformed := satInc s.line.malformed } }

/-- A frame judged is counted as rejected, is a clash, or is applied (R139 to R144). -/
theorem State.judge_cases (read : BitVec 54) (s : State) :
    (s.readsFrame = false ∧ s.judge read = s) ∨
      (s.readsFrame = true ∧
        ((judgeFrame read = .crcError ∧ s.judge read = (s.frameRead read .rejected).crcCounted) ∨
          (judgeFrame read = .malformed ∧ s.judge read = (s.frameRead read .rejected).malformedCounted) ∨
          ∃ o f, judgeFrame read = .accepted o f ∧
            ((o = s.id ∧ s.station = .quiet ∧ s.judge read = s.frameRead read .accepted) ∨
              (o = s.id ∧ s.station ≠ .quiet ∧ s.judge read = (s.frameRead read .accepted).enterQuiet .idClash .lost) ∨
              (o ≠ s.id ∧ s.judge read = (s.frameRead read .accepted).applyFrame o f)))) := by
  unfold State.judge
  cases hr : s.readsFrame with
  | false => exact .inl ⟨rfl, rfl⟩
  | true =>
    refine .inr ⟨rfl, ?_⟩
    rw [if_pos rfl]
    cases hv : judgeFrame read with
    | crcError => exact .inl ⟨rfl, rfl⟩
    | malformed => exact .inr (.inl ⟨rfl, rfl⟩)
    | accepted o f =>
      refine .inr (.inr ⟨o, f, rfl, ?_⟩)
      simp only [State.takeVerdict, State.takeFrame]
      by_cases ho : o = s.id
      · by_cases hq : s.station = .quiet
        · exact .inl ⟨ho, hq, by rw [if_pos (by exact ho), if_pos (by exact hq)]; rfl⟩
        · exact .inr (.inl ⟨ho, hq, by rw [if_pos (by exact ho), if_neg (by exact hq)]; rfl⟩)
      · exact .inr (.inr ⟨ho, by rw [if_neg (by exact ho)]; rfl⟩)

theorem State.frameRead_lineSide (read : BitVec 54) (j : Judgement) (s : State) : s.LineSide (s.frameRead read j) :=
  State.lineSide_of _ _ _ _ _ _ _ .refl

theorem State.judge_goesOn (read : BitVec 54) (s : State) : s.GoesOn (s.judge read) := by
  have hread (j : Judgement) : s.GoesOn (s.frameRead read j) := (s.frameRead_lineSide read j).goesOn
  obtain ⟨_, h⟩ | ⟨_, ⟨_, h⟩ | ⟨_, h⟩ | ⟨o, f, _, ⟨_, _, h⟩ | ⟨_, _, h⟩ | ⟨_, h⟩⟩⟩ := s.judge_cases read <;> rw [h]
  · exact .refl s
  · exact (hread .rejected).trans (State.lineSide_of _ _ _ _ _ _ _ .refl).goesOn
  · exact (hread .rejected).trans (State.lineSide_of _ _ _ _ _ _ _ .refl).goesOn
  · exact hread .accepted
  · exact (hread .accepted).trans (State.enterQuiet_lineSide _ _ _).goesOn
  · exact (hread .accepted).trans (State.applyFrame_reach o f _).goesOn

theorem State.driveReceipt_lineSide (s : State) : s.LineSide s.driveReceipt := by
  unfold State.driveReceipt
  split <;> exact State.lineSide_of _ _ _ _ _ _ _ .refl

theorem State.finishReceipts_lineSide (slots : IdSet) (s : State) : s.LineSide (s.finishReceipts slots) := by
  unfold State.finishReceipts
  split_ifs
  · exact .trans (State.takeOutcome_lineSide _ s) (State.lineSide_of _ _ _ _ _ _ _ .refl)
  · exact State.lineSide_of _ _ _ _ _ _ _ .refl
  · exact .refl s
  · exact .refl s

theorem State.finishRound_lineSide (s : State) : s.LineSide s.finishRound := by
  unfold State.finishRound
  split <;> exact State.lineSide_of _ _ _ _ _ _ _ .refl

/-- The station at the moment its line is found stuck (R118). -/
def State.stuckFound (s : State) : State :=
  { s with line := { s.line with lineState := .stuck, drivenRun := max Config.stuckRun s.line.drivenRun, releasedRun := 0 } }

/-- The station with its engine OFF (R118). -/
def State.goneOff (s : State) : State := { s with line := s.line.goOff }

/-- A stuck line is found UP, by a station that follows the line; then the group is left, the engine goes OFF, and LINE_STUCK is
written before STUCK is entered (R16, R118). -/
theorem State.findStuck_cases (s : State) :
    (¬(s.station.observes = true ∧ s.line.lineState = .up) ∧ s.findStuck = s) ∨
      (s.station.observes = true ∧ s.line.lineState = .up ∧
        s.findStuck = (((s.stuckFound.leaveGroup .lost).goneOff).write .lineStuck true).enterStuck) := by
  by_cases h : s.station.observes = true ∧ s.line.lineState = .up
  · exact .inr ⟨h.1, h.2, if_pos h⟩
  · exact .inl ⟨h, if_neg h⟩

theorem State.stuckFound_lineSide (s : State) : s.LineSide s.stuckFound := (State.lineSide_of _ _ _ _ _ _ _ .refl)

theorem State.goneOff_lineSide (s : State) : s.LineSide s.goneOff := (State.lineSide_of _ _ _ _ _ _ _ .refl)

theorem State.write_lineSide (b : FeedBody) (u : Bool) (s : State) : s.LineSide (s.write b u) :=
  State.lineSide_of _ _ _ _ _ _ _ (s.write_grows b u)

theorem State.findStuck_lineSide (s : State) : s.LineSide s.findStuck := by
  obtain ⟨_, h⟩ | ⟨_, _, h⟩ := s.findStuck_cases <;> rw [h]
  · exact .refl s
  · exact (s.stuckFound_lineSide.trans (State.leaveGroup_lineSide _ _)).trans
      ((State.goneOff_lineSide _).trans ((State.write_lineSide _ _ _).trans (State.enterStuck_lineSide _)))

theorem State.restoreLine_lineSide (s : State) : s.LineSide s.restoreLine := by
  unfold State.restoreLine
  simp only
  split
  · split <;> exact State.lineSide_of _ _ _ _ _ _ _ (.arrive _ _ _ .refl)
  · exact .refl s

/-- The events that reach the table, the monitors or the roster: an expiry of a stale timer, a census, and frames. -/
def reachesTable : Instr → Bool
  | .staleTimerExpiry _ | .censusEnd _ _ | .frameSentWhole | .frameJudged _ => true
  | _ => false

/-- Every other event stays on the side of the line. -/
theorem event_lineSide {c : Instr} {f : State → State} (h : eventOf c = some f) (hc : reachesTable c = false) (s : State) :
    s.LineSide (f s) := by
  cases c with
  | roundTimerExpiry => cases h; exact s.roundExpiry_lineSide
  | silenceTimerExpiry => cases h; exact s.loneStart_lineSide
  | markRecognised => cases h; exact s.recogniseMark_lineSide
  | markUnrecognised => cases h; exact s.missOwnMark_lineSide
  | markTrailingEdge => cases h; exact s.trailingEdge_lineSide
  | sweepStart => cases h; exact s.startSweep_lineSide
  | sweepEnd read => cases h; exact s.finishSweep_lineSide read
  | windowStart driven => cases h; exact s.startWindow_lineSide driven
  | contestLost bit => cases h; exact s.loseContest_lineSide bit
  | lineFaultAbandon bit first => cases h; exact s.lineFault_lineSide bit first
  | keyWon => cases h; exact s.winKey_lineSide
  | readBackMismatch bit first => cases h; exact s.readBackMismatch_lineSide bit first
  | receiptSlot => cases h; exact s.driveReceipt_lineSide
  | receiptFieldEnd slots => cases h; exact s.finishReceipts_lineSide slots
  | roundEnd => cases h; exact s.finishRound_lineSide
  | lineStuck => cases h; exact s.findStuck_lineSide
  | lineRestored => cases h; exact s.restoreLine_lineSide
  | staleTimerExpiry | censusEnd | frameSentWhole | frameJudged => exact Bool.noConfusion hc
  | _ => exact absurd h (Option.some_ne_none _).symm

/-- No event touches the id, the image or RST, and the feed takes records from it. -/
theorem event_goesOn {c : Instr} {f : State → State} (h : eventOf c = some f) (s : State) : s.GoesOn (f s) := by
  cases hc : reachesTable c with
  | false => exact (event_lineSide h hc s).goesOn
  | true =>
    cases c with
    | staleTimerExpiry c => cases h; exact (State.staleExpiry_reach c s).goesOn
    | censusEnd slots first => cases h; exact s.finishCensus_goesOn slots first
    | frameSentWhole => cases h; exact s.sendWhole_goesOn
    | frameJudged read => cases h; exact s.judge_goesOn read
    | _ => exact Bool.noConfusion hc

end Sys2Proof.Machine
end

section
/-! PROOFS. The feed stays numbered, bounded and counted, and IRQ follows it (R192 to R197): O4. -/

namespace Sys2Proof.Machine

/-! ### The numbers and the count of urgent records -/

theorem numberedUpTo_append (n : Counter) (rs : List FeedRecord) (r : FeedRecord) :
    numberedUpTo (n + 1) (rs ++ [r]) = true ↔ numberedUpTo n rs = true ∧ r.number = n := by
  induction rs with
  | nil => simp [numberedUpTo]
  | cons x xs ih =>
    have hnext : x.number + BitVec.ofNat 16 (xs.length + 1 + 1) = n + 1 ↔ x.number + BitVec.ofNat 16 (xs.length + 1) = n := by
      rw [BitVec.ofNat_add (xs.length + 1) 1, ← BitVec.add_assoc]
      exact BitVec.add_left_inj _
    simp only [List.cons_append, numberedUpTo, List.length_append, List.length_singleton, Bool.and_eq_true,
      decide_eq_true_eq, ih, hnext]
    tauto

theorem numberedUpTo_drop (n : Counter) (k : Nat) {rs : List FeedRecord} (h : numberedUpTo n rs = true) :
    numberedUpTo n (rs.drop k) = true := by
  induction k generalizing rs with
  | zero => exact h
  | succ k ih =>
    cases rs with
    | nil => exact h
    | cons r rs => exact ih (Bool.and_eq_true_iff.mp h).2

theorem any_urgent_iff (rs : List FeedRecord) : rs.any (·.urgent) = decide (0 < (rs.filter (·.urgent)).length) := by
  rw [Bool.eq_iff_iff, decide_eq_true_eq, List.length_pos_iff_exists_mem, List.any_eq_true]
  simp [List.mem_filter]

/-! ### Soundness, and IRQ as R197 gives it -/

theorem Feed.sound_iff (f : Feed) :
    f.sound = true ↔ f.records.length ≤ Config.feedPlaces ∧ numberedUpTo f.next f.records = true ∧
      f.urgentCount = (f.records.filter (·.urgent)).length ∧ (f.gap = 0 ∨ f.records.length = Config.feedPlaces) ∧
      (f.gapUrgent = true → f.gap ≠ 0) := by
  cases hu : f.gapUrgent <;> simp [Feed.sound, hu, and_assoc]

/-- IRQ of a feed as R197 gives it from the count, the watermark and the urgent records. -/
def Feed.irqRight (w : Nat) (f : Feed) : Prop := f.irq = (decide (w ≤ f.records.length) || f.records.any (·.urgent))

theorem Feed.judge_irqRight (w : Nat) (f : Feed) (h : f.urgentCount = (f.records.filter (·.urgent)).length) :
    (f.judge w).irqRight w := by
  simp only [Feed.irqRight, Feed.judge, any_urgent_iff, h]

@[simp] theorem Feed.judge_sound (w : Nat) (f : Feed) : (f.judge w).sound = f.sound := rfl

/-- A record stored where there is room and no loss is pending. -/
theorem Feed.append_sound (r : Counter) (u : Bool) (b : FeedBody) {f : Feed} (h : f.sound = true)
    (hroom : f.records.length < Config.feedPlaces) : (f.append r u b).sound = true := by
  obtain ⟨_, hnumbers, hcount, hgap, hurgent⟩ := f.sound_iff.mp h
  have hgap0 : f.gap = 0 := hgap.resolve_right (Nat.ne_of_lt hroom)
  refine (Feed.sound_iff _).mpr ⟨?_, (numberedUpTo_append _ _ _).mpr ⟨hnumbers, rfl⟩, ?_, .inl hgap0, hurgent⟩
  · simpa [Feed.append] using hroom
  · cases u <;> simp [Feed.append, hcount]

theorem Feed.lose_sound (u : Bool) {f : Feed} (h : f.sound = true) (hfull : Config.feedPlaces ≤ f.records.length) :
    (f.lose u).sound = true := by
  obtain ⟨hroom, hnumbers, hcount, _, _⟩ := f.sound_iff.mp h
  exact (Feed.sound_iff _).mpr ⟨hroom, hnumbers, hcount, .inr (Nat.le_antisymm hroom hfull), fun _ => satInc_ne_zero _⟩

theorem Feed.arrive_sound (w : Nat) (r : Counter) (u : Bool) (b : FeedBody) {f : Feed} (h : f.sound = true) :
    (f.arrive w r u b).sound = true := by
  obtain ⟨hroom, he⟩ | ⟨hfull, he⟩ := f.arrive_cases w r u b <;> rw [he]
  · exact Feed.append_sound r u b h hroom
  · exact Feed.lose_sound u h hfull

theorem Feed.arrive_irqRight (w : Nat) (r : Counter) (u : Bool) (b : FeedBody) {f : Feed} (h : f.sound = true)
    (hirq : f.irqRight w) : (f.arrive w r u b).irqRight w := by
  obtain ⟨hroom, he⟩ | ⟨_, he⟩ := f.arrive_cases w r u b <;> rw [he]
  · obtain ⟨_, _, hcount, _, _⟩ := (Feed.sound_iff _).mp (Feed.append_sound r u b h hroom)
    exact Feed.judge_irqRight w _ hcount
  · exact hirq

/-- Records arriving at a sound feed leave it sound, with IRQ as R197 gives it. -/
theorem Feed.Grows.sound {w : Nat} {f g : Feed} (hg : f.Grows w g) (h : f.sound = true) (hirq : f.irqRight w) :
    g.sound = true ∧ g.irqRight w := by
  induction hg with
  | refl => exact ⟨h, hirq⟩
  | arrive r u b _ ih => exact ⟨Feed.arrive_sound w r u b ih.1, Feed.arrive_irqRight w r u b ih.1 ih.2⟩

/-! ### A release (R195) -/

/-- The oldest records removed leave the rest counted; losses may now be pending with room. -/
theorem Feed.drop_counts (n : Nat) {f : Feed} (h : f.sound = true) :
    numberedUpTo (f.drop n).next (f.drop n).records = true ∧
      (f.drop n).urgentCount = ((f.drop n).records.filter (·.urgent)).length := by
  obtain ⟨_, hnumbers, hcount, _, _⟩ := f.sound_iff.mp h
  have hsplit : (f.records.filter (·.urgent)).length =
      ((f.records.take n).filter (·.urgent)).length + ((f.records.drop n).filter (·.urgent)).length := by
    rw [← List.length_append, ← List.filter_append, List.take_append_drop]
  refine ⟨numberedUpTo_drop _ n hnumbers, ?_⟩
  show f.urgentCount - _ = _
  rw [hcount, hsplit, Nat.add_sub_cancel_left]
  rfl

/-- A release forms its GAP record exactly where losses were pending: a feed with losses is full, so a record was removed. -/
theorem Feed.release_eq (w : Nat) (r : Counter) {n : Nat} {f : Feed} (h : f.sound = true) (hn : 0 < n) :
    (f.gap = 0 ∧ f.release w r n = (f.drop n).judge w) ∨
      (f.gap ≠ 0 ∧ f.release w r n =
        ({ (f.drop n).append r f.gapUrgent (.gap f.gap) with gap := 0, gapUrgent := false } : Feed).judge w) := by
  obtain ⟨_, _, _, hgap, _⟩ := f.sound_iff.mp h
  unfold Feed.release
  obtain ⟨_, hlost, he⟩ | ⟨hnone, he⟩ := (f.drop n).formGap_cases r (min n f.records.length) <;> rw [he]
  · exact .inr ⟨hlost, rfl⟩
  · refine .inl ⟨?_, rfl⟩
    rcases hnone with hzero | hzero
    · have hempty : f.records.length = 0 := by omega
      exact hgap.resolve_right (by rw [hempty]; decide)
    · exact hzero

theorem Feed.release_sound (w : Nat) (r : Counter) {n : Nat} {f : Feed} (h : f.sound = true) (hn : 0 < n) :
    (f.release w r n).sound = true ∧ (f.release w r n).irqRight w := by
  obtain ⟨hnumbers, hcount⟩ := Feed.drop_counts n h
  obtain ⟨hroom, _, _, hgap, hurgent⟩ := f.sound_iff.mp h
  have hfewer : (f.drop n).records.length = f.records.length - n := List.length_drop
  obtain ⟨hzero, he⟩ | ⟨hlost, he⟩ := Feed.release_eq w r h hn <;> rw [he]
  · exact ⟨(Feed.sound_iff _).mpr ⟨by rw [Feed.judge_records, hfewer]; omega, hnumbers, hcount, .inl hzero, hurgent⟩,
      Feed.judge_irqRight w _ hcount⟩
  · have hplaces : f.records.length = Config.feedPlaces := hgap.resolve_left hlost
    have hcount' : ((f.drop n).append r f.gapUrgent (.gap f.gap)).urgentCount =
        (((f.drop n).append r f.gapUrgent (.gap f.gap)).records.filter (·.urgent)).length := by
      cases f.gapUrgent <;> simp [Feed.append, hcount]
    refine ⟨(Feed.sound_iff _).mpr ⟨?_, (numberedUpTo_append _ _ _).mpr ⟨hnumbers, rfl⟩, hcount', .inl rfl, nofun⟩,
      Feed.judge_irqRight w _ hcount'⟩
    simp only [Feed.judge_records, Feed.append, List.length_append, hfewer, List.length_singleton]
    have : 0 < Config.feedPlaces := by decide
    omega

/-! ### The image in range (R5) -/

theorem mem_channelOrder (c : Channel) : c ∈ channelOrder := by
  revert c; decide

/-- The settings of a channel in their ranges (R5). -/
def ChannelConfig.legal (k : ChannelConfig) : Prop :=
  k.la ≤ 4095 ∧ k.lw ≤ 4095 ∧ k.hw ≤ 4095 ∧ k.ha ≤ 4095 ∧ k.hysteresis ≤ 255 ∧ 1 ≤ k.persistence ∧ k.persistence ≤ 15

theorem Image.legal_iff (i : Image) :
    i.legal = true ↔ (2 ≤ i.groupSize ∧ i.groupSize ≤ 32) ∧ (1 ≤ i.windows ∧ i.windows ≤ 4) ∧
      (128 ≤ i.period ∧ i.period ≤ 16383) ∧ (2 ≤ i.absenceLimit ∧ i.absenceLimit ≤ 15) ∧
      (1 ≤ i.retryLimit ∧ i.retryLimit ≤ 15) ∧ i.staleLimit ≤ 255 ∧ (1 ≤ i.watermark ∧ i.watermark ≤ 32) ∧
      ∀ c, (i.channel c).legal := by
  simp only [Image.legal, ChannelConfig.legal, Bool.and_eq_true, decide_eq_true_eq, List.all_eq_true, and_assoc]
  simp [mem_channelOrder]

theorem Image.channel_setChannel (i : Image) (c d : Channel) (k : ChannelConfig) :
    (i.setChannel c k).channel d = if c = d then k else i.channel d := by
  simp only [Image.channel, Image.setChannel, Fin.getElem_fin, Vector.getElem_set, Fin.ext_iff]

/-- A change of one channel's settings keeps the image in range where the new settings are. -/
theorem Image.setChannel_legal {i : Image} (h : i.legal = true) (c : Channel) {k : ChannelConfig} (hk : k.legal) :
    (i.setChannel c k).legal = true := by
  obtain ⟨hs, hw, hp, ha, hr, ht, hm, hc⟩ := i.legal_iff.mp h
  refine (Image.legal_iff _).mpr ⟨hs, hw, hp, ha, hr, ht, hm, fun d => ?_⟩
  rw [Image.channel_setChannel]
  split
  · exact hk
  · exact hc d

/-- A value in an item's range keeps the image in range (R5, R6). -/
theorem Image.write_legal {i : Image} (h : i.legal = true) {item : Item} {v : Nat} (hv : item.inRange v = true) :
    (i.write item v).legal = true := by
  obtain ⟨hs, hw, hp, ha, hr, ht, hm, hc⟩ := i.legal_iff.mp h
  have hset (c : Channel) (k : ChannelConfig) (hk : (i.channel c).legal → k.legal) := i.setChannel_legal h c (hk (hc c))
  cases item <;> simp only [Item.inRange, decide_eq_true_eq] at hv
  case groupSize => exact (Image.legal_iff _).mpr ⟨hv, hw, hp, ha, hr, ht, hm, hc⟩
  case windows => exact (Image.legal_iff _).mpr ⟨hs, hv, hp, ha, hr, ht, hm, hc⟩
  case bitRate => exact (Image.legal_iff _).mpr ⟨hs, hw, hp, ha, hr, ht, hm, hc⟩
  case period => exact (Image.legal_iff _).mpr ⟨hs, hw, hv, ha, hr, ht, hm, hc⟩
  case absenceLimit => exact (Image.legal_iff _).mpr ⟨hs, hw, hp, hv, hr, ht, hm, hc⟩
  case retryLimit => exact (Image.legal_iff _).mpr ⟨hs, hw, hp, ha, hv, ht, hm, hc⟩
  case staleLimit => exact (Image.legal_iff _).mpr ⟨hs, hw, hp, ha, hr, hv, hm, hc⟩
  case watermark => exact (Image.legal_iff _).mpr ⟨hs, hw, hp, ha, hr, ht, hv, hc⟩
  case stationId => cases hv
  all_goals
    refine hset _ _ fun hk => ?_
    simp only [ChannelConfig.legal] at hk ⊢
    omega

theorem Image.default_legal : Image.default.legal = true := by decide

/-! ### What every step keeps -/

theorem State.feedSound_iff (s : State) :
    s.feedSound = true ↔ s.feed.sound = true ∧ s.image.legal = true ∧
      (s.rst = true → s.feed.irq = false) ∧ (s.rst = false → s.feed.irqRight s.image.watermark) := by
  cases hr : s.rst <;> simp [State.feedSound, State.irqSound, Feed.irqRight, hr, and_assoc]

/-- A station that goes on keeps its feed sound. -/
theorem State.GoesOn.feedSound {s t : State} (ht : s.GoesOn t) (hrst : s.rst = false) (h : s.feedSound = true) :
    t.feedSound = true := by
  obtain ⟨_, himage, hrst', hgrows⟩ := ht
  obtain ⟨hsound, hlegal, _, hirq⟩ := s.feedSound_iff.mp h
  obtain ⟨hsound', hirq'⟩ := hgrows.sound hsound (hirq hrst)
  refine (State.feedSound_iff t).mpr ⟨hsound', himage ▸ hlegal, fun hon => ?_, fun _ => himage ▸ hirq'⟩
  rw [hrst', hrst] at hon
  cases hon

/-- A feed judged afresh has its IRQ as R197 gives it. -/
theorem State.storeItem_feedSound {i : Item} {v : Nat} {s : State} (hv : i.inRange v = true) (hrst : s.rst = false)
    (h : s.feedSound = true) : (s.storeItem i v).feedSound = true := by
  obtain ⟨hsound, hlegal, _, hirq⟩ := s.feedSound_iff.mp h
  obtain ⟨_, _, hcount, _, _⟩ := s.feed.sound_iff.mp hsound
  refine (State.feedSound_iff _).mpr ⟨?_, Image.write_legal hlegal hv, fun hon => ?_, fun _ => ?_⟩
  · simp only [State.storeItem]
    split <;> exact hsound
  · have : s.rst = true := hon
    rw [hrst] at this
    cases this
  · simp only [State.storeItem]
    split
    · exact Feed.judge_irqRight _ _ hcount
    · have hsame : (s.image.write i v).watermark = s.image.watermark := by cases i <;> first | rfl | contradiction
      exact hsame ▸ hirq hrst

theorem State.resetBlocks_feedSound {s : State} (h : s.image.legal = true) : s.resetBlocks.feedSound = true := by
  obtain ⟨_, _, _, _, _, _, hm, _⟩ := s.image.legal_iff.mp h
  refine (State.feedSound_iff _).mpr ⟨rfl, h, fun _ => rfl, fun _ => ?_⟩
  show false = (decide (s.image.watermark ≤ 0) || false)
  simp; omega

theorem State.served_feedSound {s t : State} (hrst : s.rst = false) (h : s.feedSound = true) (ht : s.Served t) :
    t.feedSound = true := by
  obtain ⟨hsound, hlegal, hon, hirq⟩ := s.feedSound_iff.mp h
  cases ht with
  | same => exact h
  | stored i v _ hv => exact State.storeItem_feedSound hv hrst h
  | started =>
    rw [State.startUp_frame]
    exact h
  | restarted => exact State.resetBlocks_feedSound hlegal
  | quieted => exact (State.enterQuiet_lineSide _ _ s).goesOn.feedSound hrst h
  | resumed => exact h
  | resumedStuck => exact h
  | acknowledging => exact h
  | shelved c flag => exact (State.setShelved_reach c flag s).goesOn.feedSound hrst h
  | purged o => exact (State.purge_reach o s).goesOn.feedSound hrst h
  | released n hn =>
    obtain ⟨hsound', hirq'⟩ := Feed.release_sound s.image.watermark s.line.round hsound hn
    refine (State.feedSound_iff _).mpr ⟨hsound', hlegal, fun hon => ?_, fun _ => hirq'⟩
    have : s.rst = true := hon
    rw [hrst] at this
    cases this
  | cleared => exact h

/-- Settles O4: records arrive one by one, and each keeps the feed numbered, counted and judged; a release empties it from its
oldest end, and an item stored judges it afresh. -/
theorem feedStaysSound : Obligations.FeedStaysSound := by
  unfold Obligations.FeedStaysSound
  intro s t hs hstep
  refine step_keeps (P := fun s => s.feedSound = true) (fun s _ _ _ _ _ _ h => h) (fun s straps => ?_) (fun s h => ?_)
    (fun s t hrst h ht => State.served_feedSound hrst h ht)
    (fun w s hrst h => (State.offerWord_reach w s).goesOn.feedSound hrst h)
    (fun c f s hf hrst h => (event_goesOn hf s).feedSound hrst h) (fun s hrst h => ?_) hs hstep
  · exact (State.feedSound_iff _).mpr ⟨rfl, Image.default_legal, fun _ => rfl, fun _ => rfl⟩
  · obtain ⟨hsound, hlegal, _, _⟩ := s.feedSound_iff.mp h
    exact (State.feedSound_iff _).mpr ⟨hsound, hlegal, fun _ => rfl, nofun⟩
  · rw [State.tick_eq hrst]
    exact h

end Sys2Proof.Machine
end

section
/-! PROOFS. What a sample, an expiry and an adoption can do to the monitors and the table (chapter 02). -/

namespace Sys2Proof.Machine

theorem State.monitor_setMonitor (c d : Channel) (m : Monitor) (s : State) :
    (s.setMonitor c m).monitor d = if c = d then m else s.monitor d := by
  simp only [State.monitor, State.setMonitor, Fin.getElem_fin, Vector.getElem_set, Fin.ext_iff]

@[simp] theorem State.monitor_setMonitor_self (c : Channel) (m : Monitor) (s : State) :
    (s.setMonitor c m).monitor c = m := by
  rw [State.monitor_setMonitor, if_pos rfl]

theorem State.monitor_setMonitor_ne {c d : Channel} (h : d ≠ c) (m : Monitor) (s : State) :
    (s.setMonitor c m).monitor d = s.monitor d := by
  rw [State.monitor_setMonitor, if_neg h.symm]

/-- A monitor set twice holds the later value. -/
@[simp] theorem State.setMonitor_setMonitor (c : Channel) (m m' : Monitor) (s : State) :
    (s.setMonitor c m).setMonitor c m' = s.setMonitor c m' := by
  simp [State.setMonitor]

theorem State.setMonitor_self (c : Channel) (s : State) : s.setMonitor c (s.monitor c) = s := by
  simp [State.setMonitor, State.monitor]

/-! ### Levels -/

theorem rawLevel_ne_fault (k : ChannelConfig) (v : Nat) : rawLevel k v ≠ .fault := by
  unfold rawLevel
  split_ifs <;> decide

theorem targetLevel_ne_fault (k : ChannelConfig) (l : Level) (v : Nat) : targetLevel k l v ≠ .fault := by
  have h := rawLevel_ne_fault k v
  cases l with
  | normal | fault => exact h
  | _ => simp only [targetLevel]; split_ifs <;> first | exact h | decide

/-- Persistence runs toward the target exactly when the target is another level than the current one (R23). -/
theorem persist_cases (current target : Level) (candidate : Option Level) (count : Nat) :
    (target = current ∧ persist current target candidate count = (none, 0)) ∨
      (target ≠ current ∧ candidate = some target ∧ persist current target candidate count = (some target, count + 1)) ∨
      (target ≠ current ∧ candidate ≠ some target ∧ persist current target candidate count = (some target, 1)) := by
  unfold persist
  split_ifs with h1 h2
  · exact .inl ⟨h1, rfl⟩
  · exact .inr (.inl ⟨h1, h2, by rw [h2]⟩)
  · exact .inr (.inr ⟨h1, h2, rfl⟩)

/-! ### An adoption (R28) -/

/-- The monitor of a channel once it has adopted a level, from what it was when the adoption came (R28). -/
def Monitor.adopting (m : Monitor) (y : Level) (cause : FaultCause) : Monitor :=
  { m with
    level := y, candidate := none, count := 0, faultCause := cause, record := m.record.adopt m.level y m.lastValue }

/-- A channel's notice staged as a change (R74). -/
def State.staged (c : Channel) (s : State) : State := { s with queue := stageChange c s.queue }

/-- An adoption by channel `c` from the monitor `m`: the monitor, the table, the staging (R28). -/
def State.adoptFrom (m : Monitor) (c : Channel) (y : Level) (cause : FaultCause) (s : State) : State :=
  ((s.setMonitor c (m.adopting y cause)).adoptEntry c (m.adopting y cause).record).staged c

theorem State.adopt_eq (c : Channel) (y : Level) (cause : FaultCause) (s : State) :
    s.adopt c y cause = s.adoptFrom (s.monitor c) c y cause := rfl

theorem State.adopt_setMonitor (m : Monitor) (c : Channel) (y : Level) (cause : FaultCause) (s : State) :
    (s.setMonitor c m).adopt c y cause = s.adoptFrom m c y cause := by
  rw [State.adopt_eq, State.adoptFrom, State.adoptFrom, State.monitor_setMonitor_self, State.setMonitor_setMonitor]

/-- An adoption leaves a level other than NORMAL in the record (R29, R31). -/
theorem Record.adopt_level_ne_normal (r : Record) {x y : Level} (v : Value) (h : y ≠ x) :
    (r.adopt x y v).level ≠ .normal := by
  simp only [Record.adopt]
  split
  · rename_i hy; exact fun hx => h (hy.trans hx.symm)
  · assumption

/-- The own-origin entry is created, cleared or changed by an adoption, by whether it is held and what the record says (R51). -/
theorem State.adoptEntry_cases (c : Channel) (r : Record) (s : State) :
    (s.table.find s.id c = none ∧ r.active = true ∧
        s.adoptEntry c r = s.addEntry (Entry.ofRecord s.id c r false s.line.round)) ∨
      (s.table.find s.id c = none ∧ r.active = false ∧ s.adoptEntry c r = s) ∨
      (∃ e, s.table.find s.id c = some e ∧ r.active = false ∧ r.ackedBy.isSome = true ∧
        s.adoptEntry c r = (s.clearEntry e r).makeStale s.id c) ∨
      ∃ e, s.table.find s.id c = some e ∧ (r.active = true ∨ r.ackedBy = none) ∧
        s.adoptEntry c r = (s.changeEntry (e.overwrite r s.line.round)).makeStale s.id c := by
  cases hf : s.table.find s.id c with
  | none =>
    cases ha : r.active
    · exact .inr (.inl ⟨rfl, rfl, by simp [State.adoptEntry, hf, ha]⟩)
    · exact .inl ⟨rfl, rfl, by simp [State.adoptEntry, hf, ha]⟩
  | some e =>
    refine .inr (.inr ?_)
    by_cases h : (!r.active && r.ackedBy.isSome) = true
    · have hover := h
      simp only [Bool.and_eq_true, Bool.not_eq_true'] at hover
      exact .inl ⟨e, rfl, hover.1, hover.2, by simp only [State.adoptEntry, hf]; exact if_pos h⟩
    · refine .inr ⟨e, rfl, ?_, by simp only [State.adoptEntry, hf]; exact if_neg h⟩
      cases ha : r.active
      · exact .inr (by simpa [ha] using h)
      · exact .inl rfl

/-! ### Samples and expiries -/

/-- A value classified: back at the level, on the way to another one, or adopting it at full persistence (R23). -/
theorem State.classify_cases (c : Channel) (s : State) :
    (targetLevel (s.image.channel c) (s.monitor c).level (s.monitor c).lastValue.toNat = (s.monitor c).level ∧
        s.classify c = s.setMonitor c { s.monitor c with candidate := none, count := 0 }) ∨
      ∃ y n, y = targetLevel (s.image.channel c) (s.monitor c).level (s.monitor c).lastValue.toNat ∧
        y ≠ (s.monitor c).level ∧
        (((s.monitor c).candidate = some y ∧ n = (s.monitor c).count + 1) ∨ ((s.monitor c).candidate ≠ some y ∧ n = 1)) ∧
        ((n ≠ (s.image.channel c).persistence ∧
            s.classify c = s.setMonitor c { s.monitor c with candidate := some y, count := n }) ∨
          (n = (s.image.channel c).persistence ∧ s.classify c = s.adoptFrom (s.monitor c) c y .none)) := by
  have hrun (y : Level) (n : Nat) (h : persist (s.monitor c).level y (s.monitor c).candidate (s.monitor c).count = (some y, n))
      (hy : y = targetLevel (s.image.channel c) (s.monitor c).level (s.monitor c).lastValue.toNat) :
      (n ≠ (s.image.channel c).persistence ∧
          s.classify c = s.setMonitor c { s.monitor c with candidate := some y, count := n }) ∨
        (n = (s.image.channel c).persistence ∧ s.classify c = s.adoptFrom (s.monitor c) c y .none) := by
    unfold State.classify
    simp only [← hy, h]
    split
    · rename_i hn
      refine .inr ⟨hn, ?_⟩
      rw [State.adopt_setMonitor]
      rfl
    · exact .inl ⟨‹_›, rfl⟩
  obtain ⟨hsame, hp⟩ | ⟨hne, hcand, hp⟩ | ⟨hne, hcand, hp⟩ :=
    persist_cases (s.monitor c).level (targetLevel (s.image.channel c) (s.monitor c).level (s.monitor c).lastValue.toNat)
      (s.monitor c).candidate (s.monitor c).count
  · exact .inl ⟨hsame, by simp only [State.classify, hp]⟩
  · exact .inr ⟨_, _, rfl, hne, .inl ⟨hcand, rfl⟩, hrun _ _ hp rfl⟩
  · exact .inr ⟨_, _, rfl, hne, .inr ⟨hcand, rfl⟩, hrun _ _ hp rfl⟩

/-- A fault event in FAULT changes the cause alone; elsewhere FAULT is adopted (R24). -/
theorem State.faultEvent_setMonitor (m : Monitor) (c : Channel) (cause : FaultCause) (s : State) :
    (m.level = .fault ∧ (s.setMonitor c m).faultEvent c cause = s.setMonitor c { m with faultCause := cause }) ∨
      (m.level ≠ .fault ∧ (s.setMonitor c m).faultEvent c cause = s.adoptFrom m c .fault cause) := by
  unfold State.faultEvent
  rw [State.monitor_setMonitor_self, State.setMonitor_setMonitor, State.adopt_setMonitor]
  by_cases h : m.level = .fault
  · exact .inl ⟨h, if_pos h⟩
  · exact .inr ⟨h, if_neg h⟩

/-- What an event of a channel makes of its station: the monitor alone, with its level as it was, or an adoption of another level
(R20 to R26). -/
inductive State.ChannelEvent (c : Channel) (s : State) : State → Prop
  | same : s.ChannelEvent c s
  | monitor (m : Monitor) (hlevel : m.level = (s.monitor c).level) (hrecord : m.record = (s.monitor c).record)
      (hsound : (s.monitor c).sound = true → m.sound = true) : s.ChannelEvent c (s.setMonitor c m)
  | adopts (m : Monitor) (y : Level) (cause : FaultCause) (hlevel : m.level = (s.monitor c).level)
      (hrecord : m.record = (s.monitor c).record) (hy : y ≠ (s.monitor c).level) (hcause : cause = .none ↔ y ≠ .fault) :
      s.ChannelEvent c (s.adoptFrom m c y cause)

theorem Monitor.sound_iff (m : Monitor) :
    m.sound = true ↔ (m.faultCause = .none ↔ m.level ≠ .fault) ∧ (m.count = 0 ↔ m.candidate = none) ∧
      m.candidate ≠ some m.level := by
  simp only [Monitor.sound, Bool.and_eq_true, decide_eq_true_eq, and_assoc]

theorem State.faultEvent_channelEvent {m : Monitor} {c : Channel} {cause : FaultCause} {s : State}
    (hlevel : m.level = (s.monitor c).level) (hrecord : m.record = (s.monitor c).record)
    (hsound : (s.monitor c).sound = true → m.sound = true) (hcause : cause ≠ .none) :
    s.ChannelEvent c ((s.setMonitor c m).faultEvent c cause) := by
  obtain ⟨hf, h⟩ | ⟨hf, h⟩ := State.faultEvent_setMonitor m c cause s <;> rw [h]
  · refine .monitor _ hlevel hrecord fun hs => (Monitor.sound_iff _).mpr ?_
    obtain ⟨_, hcount, hcand⟩ := (Monitor.sound_iff _).mp (hsound hs)
    exact ⟨by simp [hcause, hf], hcount, hcand⟩
  · exact .adopts m .fault cause hlevel hrecord (hlevel ▸ Ne.symm hf) (by simp [hcause])

theorem State.sampleArrival_channelEvent (w : BitVec 16) (s : State) :
    s.ChannelEvent (wordChannel w) (s.sampleArrival w) := by
  unfold State.sampleArrival
  simp only
  generalize wordChannel w = c
  split
  · exact State.faultEvent_channelEvent (m := { s.monitor c with staleTimer := s.image.staleStart }) rfl rfl (fun h => h)
      (by decide)
  · rw [State.monitor_setMonitor_self, State.setMonitor_setMonitor]
    obtain ⟨_, h⟩ | ⟨y, n, hy, hne, hn, hend⟩ := State.classify_cases c
      (s.setMonitor c { s.monitor c with staleTimer := s.image.staleStart, lastValue := wordValue w })
    · rw [h, State.monitor_setMonitor_self, State.setMonitor_setMonitor]
      refine .monitor _ rfl rfl fun hs => (Monitor.sound_iff _).mpr ?_
      obtain ⟨hcause, _, _⟩ := (Monitor.sound_iff _).mp hs
      exact ⟨hcause, by simp, by simp⟩
    · rw [State.monitor_setMonitor_self] at hne
      obtain ⟨_, h⟩ | ⟨_, h⟩ := hend
      · rw [h, State.monitor_setMonitor_self, State.setMonitor_setMonitor]
        refine .monitor _ rfl rfl fun hs => (Monitor.sound_iff _).mpr ?_
        obtain ⟨hcause, _, _⟩ := (Monitor.sound_iff _).mp hs
        refine ⟨hcause, ?_, fun heq => hne (Option.some.inj heq)⟩
        have hpos : n ≠ 0 := by obtain ⟨_, rfl⟩ | ⟨_, rfl⟩ := hn <;> omega
        simp [hpos]
      · rw [h, State.monitor_setMonitor_self, State.adoptFrom, State.setMonitor_setMonitor]
        exact .adopts _ y .none rfl rfl hne (by simp [hy ▸ targetLevel_ne_fault _ _ _])

theorem State.offerWord_channelEvent (w : BitVec 16) (s : State) :
    s.offerWord w = s ∨
      (s.station.classifies = true ∧ (s.image.channel (wordChannel w)).enable = true ∧
        s.ChannelEvent (wordChannel w) (s.offerWord w)) := by
  unfold State.offerWord
  split
  · rename_i h
    obtain ⟨hstation, henable⟩ := Bool.and_eq_true_iff.mp h
    exact .inr ⟨hstation, henable, State.sampleArrival_channelEvent w s⟩
  · exact .inl rfl

theorem State.staleExpiry_channelEvent (c : Channel) (s : State) :
    s.staleExpiry c = s ∨
      (s.station.classifies = true ∧ (s.monitor c).staleTimer ≠ none ∧ s.ChannelEvent c (s.staleExpiry c)) := by
  unfold State.staleExpiry
  split
  · rename_i h
    obtain ⟨hstation, htimer⟩ := Bool.and_eq_true_iff.mp h
    exact .inr ⟨hstation, Option.isSome_iff_ne_none.mp htimer,
      State.faultEvent_channelEvent rfl rfl (fun h => h) (by decide)⟩
  · exact .inl rfl

end Sys2Proof.Machine
end

section
/-! PROOFS. The condition table as a list in key order, and what a frame of the line can do to it (chapter 03). -/

namespace Sys2Proof.Machine

/-! ### The list of entries -/

theorem insertEntry_perm (e : Entry) (es : List Entry) : (insertEntry e es).Perm (e :: es) := by
  induction es with
  | nil => exact .refl _
  | cons f fs ih =>
    unfold insertEntry
    split
    · exact .refl _
    · exact (ih.cons f).trans (.swap e f fs)

/-- An entry of a new key is inserted in its place (R42). -/
theorem insertEntry_sorted {e : Entry} {es : List Entry} (h : es.Pairwise (fun a b => a.index < b.index))
    (hnew : ∀ f ∈ es, f.index ≠ e.index) : (insertEntry e es).Pairwise (fun a b => a.index < b.index) := by
  induction es with
  | nil => simp [insertEntry]
  | cons f fs ih =>
    obtain ⟨hf, hfs⟩ := List.pairwise_cons.mp h
    unfold insertEntry
    split
    · rename_i hlt
      refine List.pairwise_cons.mpr ⟨fun g hg => ?_, h⟩
      rcases List.mem_cons.mp hg with rfl | hg
      · exact hlt
      · exact hlt.trans (hf g hg)
    · rename_i hge
      refine List.pairwise_cons.mpr ⟨fun g hg => ?_, ih hfs fun g hg => hnew g (List.mem_cons_of_mem f hg)⟩
      rcases mem_insertEntry.mp hg with rfl | hg
      · have := hnew f List.mem_cons_self
        omega
      · exact hf g hg

/-- A replacement keeps every key in its place. -/
theorem map_key_replaceEntry (e : Entry) (es : List Entry) :
    (replaceEntry e es).map (fun f => (f.origin, f.channel)) = es.map (fun f => (f.origin, f.channel)) := by
  simp only [replaceEntry, List.map_map]
  refine List.map_congr_left fun f _ => ?_
  by_cases h : f.hasKey e.origin e.channel = true
  · have := h
    simp only [Entry.hasKey, Bool.and_eq_true, decide_eq_true_eq] at this
    simp [h, this.1, this.2]
  · simp [h]

/-- Entries of which only the keys matter: a property of the list of keys. -/
theorem sorted_iff_keys (es : List Entry) :
    es.Pairwise (fun a b => a.index < b.index) ↔
      (es.map (fun f => (f.origin, f.channel))).Pairwise (fun a b => keyIndex a.1 a.2 < keyIndex b.1 b.2) := by
  rw [List.pairwise_map]
  rfl

theorem length_remote_iff_keys (id : StationId) (es : List Entry) :
    (remoteEntries id es).length = ((es.map (fun f => (f.origin, f.channel))).filter (fun k => decide (k.1 ≠ id))).length := by
  rw [List.filter_map, List.length_map]
  rfl

/-- Entries with the same keys stand in the same order and are remote alike. -/
theorem sorted_congr {es fs : List Entry}
    (h : fs.map (fun f => (f.origin, f.channel)) = es.map (fun f => (f.origin, f.channel)))
    (hes : es.Pairwise (fun a b => a.index < b.index)) : fs.Pairwise (fun a b => a.index < b.index) := by
  rw [sorted_iff_keys] at hes ⊢
  exact h ▸ hes

theorem length_remote_congr (id : StationId) {es fs : List Entry}
    (h : fs.map (fun f => (f.origin, f.channel)) = es.map (fun f => (f.origin, f.channel))) :
    (remoteEntries id fs).length = (remoteEntries id es).length := by
  rw [length_remote_iff_keys, length_remote_iff_keys, h]

theorem length_remote_insertEntry (id : StationId) (e : Entry) (es : List Entry) :
    (remoteEntries id (insertEntry e es)).length = (remoteEntries id es).length + if e.origin ≠ id then 1 else 0 := by
  rw [remoteEntries, ((insertEntry_perm e es).filter _).length_eq, List.filter_cons]
  by_cases h : e.origin = id <;> simp [h, remoteEntries]

/-- In a table in key order a key names one entry. -/
theorem eq_of_key_eq {es : List Entry} (h : es.Pairwise (fun a b => a.index < b.index)) {a b : Entry} (ha : a ∈ es)
    (hb : b ∈ es) (hkey : a.index = b.index) : a = b := by
  have hinj : (es.map Entry.index).Nodup := by
    rw [List.Nodup, List.pairwise_map]
    exact h.imp fun hlt => Nat.ne_of_lt hlt
  exact List.inj_on_of_nodup_map hinj ha hb hkey

/-! ### Finding by key (R42) -/

theorem Entry.hasKey_eq_decide (e : Entry) (o : StationId) (c : Channel) :
    e.hasKey o c = decide (e.origin = o ∧ e.channel = c) := by
  simp [Entry.hasKey]

theorem find?_insertEntry {e : Entry} {es : List Entry} (p : Entry → Bool) (hnone : p e = true → es.find? p = none) :
    (insertEntry e es).find? p = if p e then some e else es.find? p := by
  induction es with
  | nil => cases hp : p e <;> simp [insertEntry, hp]
  | cons f fs ih =>
    unfold insertEntry
    split
    · cases hp : p e <;> simp [List.find?_cons, hp]
    · cases hf : p f with
      | false =>
        have := ih fun hp => by have := hnone hp; rwa [List.find?_cons, hf] at this
        simpa [List.find?_cons, hf] using this
      | true =>
        have he : p e = false := by
          by_contra hp
          have := hnone (by simpa using hp)
          rw [List.find?_cons, hf] at this
          cases this
        simp [hf, he]

theorem find?_dropEntry_same (o : StationId) (c : Channel) (es : List Entry) :
    (Machine.dropEntry o c es).find? (fun f => f.hasKey o c) = none := by
  rw [List.find?_eq_none]
  intro f hf
  rw [(mem_dropEntry.mp hf).2]
  exact Bool.false_ne_true

theorem find?_dropEntry_ne {o o' : StationId} {c c' : Channel} (h : ¬(o' = o ∧ c' = c)) (es : List Entry) :
    (Machine.dropEntry o c es).find? (fun f => f.hasKey o' c') = es.find? (fun f => f.hasKey o' c') := by
  induction es with
  | nil => rfl
  | cons f fs ih =>
    simp only [Machine.dropEntry, List.filter_cons] at ih ⊢
    by_cases hf : f.hasKey o c = true
    · have hf' : f.hasKey o' c' = false := by
        rw [Entry.hasKey_eq_decide, decide_eq_true_eq] at hf
        rw [Entry.hasKey_eq_decide, decide_eq_false_iff_not]
        rintro ⟨rfl, rfl⟩
        exact h ⟨hf.1, hf.2⟩
      simp [hf, hf', ih]
    · simp only [Bool.not_eq_true] at hf
      simp only [hf, Bool.not_false, if_true, List.find?_cons]
      cases f.hasKey o' c'
      · exact ih
      · rfl

theorem find?_replaceEntry_ne {e : Entry} {o : StationId} {c : Channel} (h : ¬(o = e.origin ∧ c = e.channel))
    (es : List Entry) : (replaceEntry e es).find? (fun f => f.hasKey o c) = es.find? (fun f => f.hasKey o c) := by
  induction es with
  | nil => rfl
  | cons f fs ih =>
    simp only [replaceEntry, List.map_cons, List.find?_cons] at ih ⊢
    by_cases hf : f.hasKey e.origin e.channel = true
    · have he : e.hasKey o c = false := by
        rw [Entry.hasKey_eq_decide, decide_eq_false_iff_not]
        rintro ⟨rfl, rfl⟩
        exact h ⟨rfl, rfl⟩
      have hf' : f.hasKey o c = false := by
        rw [Entry.hasKey_eq_decide, decide_eq_true_eq] at hf
        rw [Entry.hasKey_eq_decide, decide_eq_false_iff_not]
        rintro ⟨rfl, rfl⟩
        exact h ⟨hf.1, hf.2⟩
      simpa [hf, he, hf'] using ih
    · rw [if_neg hf]
      cases f.hasKey o c
      · exact ih
      · rfl

theorem find?_replaceEntry_same {e f : Entry} {es : List Entry}
    (h : es.find? (fun g => g.hasKey e.origin e.channel) = some f) :
    (replaceEntry e es).find? (fun g => g.hasKey e.origin e.channel) = some e := by
  induction es with
  | nil => cases h
  | cons g gs ih =>
    simp only [replaceEntry, List.map_cons, List.find?_cons] at ih h ⊢
    by_cases hg : g.hasKey e.origin e.channel = true
    · simp [hg]
    · rw [if_neg hg]
      simp only [Bool.not_eq_true] at hg
      rw [hg] at h ⊢
      exact ih h

/-- In a table in key order an entry is found by its key. -/
theorem Table.find_of_mem {t : Table} (h : t.entries.Pairwise (fun a b => a.index < b.index)) {e : Entry}
    (he : e ∈ t.entries) : t.find e.origin e.channel = some e := by
  cases hf : t.find e.origin e.channel with
  | none =>
    have := Table.find_none.mp hf e he
    rw [Entry.hasKey_self] at this
    cases this
  | some f =>
    obtain ⟨hmem, ho, hc⟩ := Table.find_some hf
    rw [eq_of_key_eq h hmem he (by rw [Entry.index, Entry.index, ho, hc])]

/-! ### Acknowledgements (R57) -/

/-- An ACK acts on an unacknowledged entry of its very seq, active or cleared, and on no other. -/
theorem State.applyAck_cases (k o : StationId) (c : Channel) (q : Seq) (s : State) :
    ((∀ e, s.table.find o c = some e → e.seq ≠ q ∨ e.ackedBy ≠ none) ∧ s.applyAck k o c q = s) ∨
      ∃ e, s.table.find o c = some e ∧ e.seq = q ∧ e.ackedBy = none ∧
        ((e.active = true ∧ s.applyAck k o c q = s.setAcked e k) ∨
          (e.active = false ∧ s.applyAck k o c q = s.removeAcked e k)) := by
  unfold State.applyAck
  cases hf : s.table.find o c with
  | none => exact .inl ⟨nofun, rfl⟩
  | some e =>
    simp only
    by_cases h : e.seq = q ∧ e.acked = false
    · have hnone : e.ackedBy = none := by simpa [Entry.acked] using h.2
      rw [if_pos h]
      refine .inr ⟨e, rfl, h.1, hnone, ?_⟩
      cases e.active
      · exact .inr ⟨rfl, rfl⟩
      · exact .inl ⟨rfl, rfl⟩
    · rw [if_neg h]
      refine .inl ⟨fun f hf => ?_, rfl⟩
      obtain rfl := Option.some.inj hf
      by_cases hq : e.seq = q
      · refine .inr fun hnone => h ⟨hq, by simp [Entry.acked, hnone]⟩
      · exact .inl hq

/-! ### Announcements (R54 to R56) -/

/-- A remote entry is created where there is room, or where the victim gives way; otherwise the newcomer is dropped. -/
theorem State.createRemote_cases (o : StationId) (c : Channel) (r : Record) (s : State) :
    let e := Entry.ofRecord o c r (s.holdsAbsent o) s.line.round
    ((remoteEntries s.id s.table.entries).length < Config.remotePlaces ∧ s.createRemote o c r = s.addEntry e) ∨
      (Config.remotePlaces ≤ (remoteEntries s.id s.table.entries).length ∧
        ∃ v, firstVictim (remoteEntries s.id s.table.entries) = some v ∧
          ((admitted v e = true ∧ s.createRemote o c r = ((s.evict v).addEntry e).makeStale v.origin v.channel) ∨
            (admitted v e = false ∧ s.createRemote o c r = s.dropNewcomer e))) := by
  simp only [State.createRemote]
  split
  · exact .inl ⟨‹_›, rfl⟩
  · rename_i hfull
    have hne : remoteEntries s.id s.table.entries ≠ [] := fun h => hfull (by rw [h]; decide)
    obtain ⟨v, hv⟩ := Option.isSome_iff_exists.mp (firstVictim_isSome hne)
    refine .inr ⟨Nat.le_of_not_lt hfull, v, hv, ?_⟩
    simp only [State.admitNewcomer, hv]
    cases admitted v _
    · exact .inr ⟨rfl, rfl⟩
    · exact .inl ⟨rfl, rfl⟩

/-- A condition that an announcement reports as over: cleared and acknowledged (R55). -/
def Record.isOver (r : Record) : Prop := r.active = false ∧ r.ackedBy.isSome = true

/-- An announcement of any kind that its kind allows does one thing, by the entry held and by whether it is over (R54 to R56). -/
theorem State.applyAnnouncement_cases (o : StationId) (kind : NoticeKind) (c : Channel) (r : Record) (s : State)
    (hvalid : announcementValid kind r = true) :
    (s.table.find o c = none ∧ r.isOver ∧ s.applyFrame o (.announcement kind c r) = s) ∨
      (s.table.find o c = none ∧ ¬r.isOver ∧ s.applyFrame o (.announcement kind c r) = s.createRemote o c r) ∨
      (∃ e, s.table.find o c = some e ∧ newer r.seq e.seq = false ∧ s.applyFrame o (.announcement kind c r) = s) ∨
      (∃ e, s.table.find o c = some e ∧ newer r.seq e.seq = true ∧ ¬r.isOver ∧
        s.applyFrame o (.announcement kind c r) = s.overwriteEntry e r) ∨
      ∃ e, s.table.find o c = some e ∧ newer r.seq e.seq = true ∧ r.isOver ∧
        s.applyFrame o (.announcement kind c r) = (s.clearEntry e r).makeStale e.origin e.channel := by
  obtain ⟨_, hkind⟩ := Bool.and_eq_true_iff.mp hvalid
  have hframe : s.applyFrame o (.announcement kind c r) = if r.active then s.applyRaise o c r else s.applyClear o c r := by
    cases kind with
    | raise => have ha : r.active = true := hkind; simp [State.applyFrame, ha]
    | clear => have ha : (!r.active) = true := hkind; simp at ha; simp [State.applyFrame, ha]
    | state => rfl
    | ack => cases hkind
    | replay => cases hkind
  rw [hframe]
  cases ha : r.active with
  | true =>
    have hnot : ¬r.isOver := fun h => by rw [Record.isOver, ha] at h; cases h.1
    simp only [if_true, State.applyRaise]
    cases hf : s.table.find o c with
    | none => exact .inr (.inl ⟨rfl, hnot, rfl⟩)
    | some e =>
      simp only
      cases hn : newer r.seq e.seq
      · exact .inr (.inr (.inl ⟨e, rfl, hn, rfl⟩))
      · exact .inr (.inr (.inr (.inl ⟨e, rfl, hn, hnot, rfl⟩)))
  | false =>
    simp only [Bool.false_eq_true, if_false, State.applyClear]
    cases hk : r.ackedBy.isSome with
    | true =>
      have hover : r.isOver := ⟨ha, hk⟩
      cases hf : s.table.find o c with
      | none => exact .inl ⟨rfl, hover, rfl⟩
      | some e =>
        simp only [if_true]
        cases hn : newer r.seq e.seq
        · exact .inr (.inr (.inl ⟨e, rfl, hn, rfl⟩))
        · exact .inr (.inr (.inr (.inr ⟨e, rfl, hn, hover, rfl⟩)))
    | false =>
      have hnot : ¬r.isOver := fun h => by rw [Record.isOver, hk] at h; cases h.2
      cases hf : s.table.find o c with
      | none => exact .inr (.inl ⟨rfl, hnot, rfl⟩)
      | some e =>
        simp only [Bool.false_eq_true, if_false]
        cases hn : newer r.seq e.seq
        · exact .inr (.inr (.inl ⟨e, rfl, hn, rfl⟩))
        · exact .inr (.inr (.inr (.inl ⟨e, rfl, hn, hnot, rfl⟩)))

/-! ### REPLAYs (R59, R95, R143) -/

/-- CONFIG_MISMATCH where the parameters of a REPLAY differ from the image (R143). -/
def State.noteMismatch (o : StationId) (g : BitVec 6) (w : BitVec 3) (p : BitVec 14) (s : State) : State :=
  if s.image.mismatches g w p then s.write (.configMismatch o g w p) false else s

theorem State.noteMismatch_frame (o : StationId) (g : BitVec 6) (w : BitVec 3) (p : BitVec 14) (s : State) :
    s.noteMismatch o g w p = { s with feed := (s.noteMismatch o g w p).feed } := by
  unfold State.noteMismatch
  split <;> rfl

/-- A REPLAY removes its origin's entries, is answered by the queue, and then makes the ACK entries stale (R144). -/
theorem State.applyReplay_eq (o : StationId) (g : BitVec 6) (w : BitVec 3) (p : BitVec 14) (s : State) :
    s.applyReplay o g w p =
      (((s.noteMismatch o g w p).removeAll (s.table.ofOrigin o) .rejoin).answerReplay o).makeStaleAll
        (keysOf (s.table.ofOrigin o)) := by
  have htable : (s.noteMismatch o g w p).table = s.table := by rw [State.noteMismatch_frame]
  rw [← htable]
  rfl

/-! ### Shelving (R36) -/

/-- A monitor whose shelved flag is set while an own-origin entry is held: seq counts and the value is refreshed (R36). -/
def Monitor.shelving (m : Monitor) (flag : Bool) : Monitor :=
  { m with record := { m.record with shelved := flag, seq := m.record.seq + 1, value := m.lastValue } }

/-- An own-origin entry that takes the shelving of its channel (R36). -/
def Entry.shelving (e : Entry) (r : Record) (round : Counter) : Entry :=
  { e with shelved := r.shelved, seq := r.seq, value := r.value, changedRound := round }

/-- Setting the shelved flag changes nothing where it stands so already, the flag alone without an own-origin entry, and else the
record, the entry, the queue and the feed (R35, R36). -/
theorem State.setShelved_cases (c : Channel) (flag : Bool) (s : State) :
    ((s.monitor c).record.shelved = flag ∧ s.setShelved c flag = s) ∨
      ((s.monitor c).record.shelved ≠ flag ∧ s.table.find s.id c = none ∧
        s.setShelved c flag =
          s.setMonitor c { s.monitor c with record := { (s.monitor c).record with shelved := flag } }) ∨
      ∃ e, (s.monitor c).record.shelved ≠ flag ∧ s.table.find s.id c = some e ∧
        s.setShelved c flag =
          (((s.setMonitor c ((s.monitor c).shelving flag)).changeEntry
            (e.shelving ((s.monitor c).shelving flag).record s.line.round)).makeStale s.id c).staged c := by
  unfold State.setShelved
  simp only
  by_cases h : (s.monitor c).record.shelved = flag
  · exact .inl ⟨h, if_pos h⟩
  · refine .inr ?_
    rw [if_neg h]
    cases hf : s.table.find s.id c with
    | none => exact .inl ⟨h, rfl, rfl⟩
    | some e => exact .inr ⟨e, h, rfl, rfl⟩

/-! ### What the judgement of a frame guarantees (R140) -/

/-- An announcement that is judged ACCEPTED is one that its kind allows (R140, checks 3 to 5). -/
theorem announcementValid_of_judgeFrame {read : BitVec 54} {o : StationId} {kind : NoticeKind} {c : Channel} {r : Record}
    (h : judgeFrame read = .accepted o (.announcement kind c r)) : announcementValid kind r = true := by
  have hannouncement {origin : StationId} {k : NoticeKind} {p : BitVec 36}
      (h : judgeAnnouncement origin k p = .accepted o (.announcement kind c r)) : announcementValid kind r = true := by
    unfold judgeAnnouncement at h
    split at h
    · cases h
    · split at h
      · rename_i hv
        cases h
        exact hv
      · cases h
  unfold judgeFrame at h
  simp only at h
  split at h
  · split at h
    · cases h
    · cases h
    · cases h
    all_goals exact hannouncement h
  · cases h

end Sys2Proof.Machine
end

section
/-! PROOFS. One principle for what every step keeps of the table, the monitors, the roster and the own contribution: it is enough to
look at a reset, an adoption, a shelving, a purge, a frame, an acknowledgement and a slot of the census. -/

namespace Sys2Proof.Machine

/-! ### The stale timers -/

/-- Operations on the monitors of several channels, each on its own channel alone. -/
theorem State.monitor_foldl {f : State → Channel → State} {g : Channel → Monitor → Monitor} {i : Image}
    (hf : ∀ s c, s.image = i → f s c = s.setMonitor c (g c (s.monitor c))) (cs : List Channel) (hcs : cs.Nodup) (s : State)
    (hs : s.image = i) (d : Channel) :
    (cs.foldl f s).monitor d = if d ∈ cs then g d (s.monitor d) else s.monitor d := by
  induction cs generalizing s with
  | nil => rfl
  | cons c cs ih =>
    obtain ⟨hc, hcs⟩ := List.nodup_cons.mp hcs
    rw [List.foldl_cons, hf s c hs, ih hcs (s.setMonitor c (g c (s.monitor c))) hs, State.monitor_setMonitor]
    by_cases hd : c = d
    · subst hd
      rw [if_neg hc, if_pos rfl, if_pos List.mem_cons_self]
    · simp only [if_neg hd, List.mem_cons, Ne.symm hd, false_or]

theorem channelOrder_nodup : channelOrder.Nodup := by decide

/-- START starts the stale timer of each enabled channel (R9, R25). -/
theorem State.monitor_startTimers (s : State) (d : Channel) :
    (channelOrder.foldl State.startTimer s).monitor d =
      if (s.image.channel d).enable then { s.monitor d with staleTimer := s.image.staleStart } else s.monitor d := by
  refine (State.monitor_foldl (i := s.image)
    (g := fun c m => if (s.image.channel c).enable then { m with staleTimer := s.image.staleStart } else m)
    (fun t c ht => ?_) channelOrder channelOrder_nodup s rfl d).trans (if_pos (mem_channelOrder d))
  unfold State.startTimer
  rw [ht]
  split
  · rfl
  · exact (State.setMonitor_self c t).symm

/-- A bit time lets each stale timer run (R25). -/
theorem State.monitor_tickMonitors (s : State) (d : Channel) :
    (channelOrder.foldl State.tickMonitor s).monitor d =
      { s.monitor d with staleTimer := runTimer s.image.bitRate.bitMicros (s.monitor d).staleTimer } :=
  (State.monitor_foldl (i := s.image)
    (g := fun _ m => { m with staleTimer := runTimer s.image.bitRate.bitMicros m.staleTimer })
    (fun t c ht => by rw [State.tickMonitor, ht]) channelOrder channelOrder_nodup s rfl d).trans (if_pos (mem_channelOrder d))

/-! ### Changes beside the table -/

/-- The table's entries, the monitors but for their timers, the roster and the own contribution stay; the pins follow the own
contribution, or show a sweep, or stay. -/
structure State.SameTables (s t : State) : Prop where
  id : t.id = s.id
  entries : t.table.entries = s.table.entries
  monitors : ∀ c, t.monitor c = { s.monitor c with staleTimer := (t.monitor c).staleTimer }
  roster : t.roster = s.roster
  own : t.ann.own = s.ann.own
  pins : t.ann = s.ann ∨ t.ann.link = true ∨ t.ann.code = t.ann.own

theorem State.sameTables_of {s t : State} (hid : t.id = s.id) (hentries : t.table.entries = s.table.entries)
    (hmonitors : t.monitors = s.monitors) (hroster : t.roster = s.roster) (hann : t.ann = s.ann) : s.SameTables t :=
  ⟨hid, hentries, fun c => by rw [State.monitor, State.monitor, hmonitors], hroster, by rw [hann], .inl hann⟩

theorem State.LineSide.sameTables {s t : State} (h : s.LineSide t) : s.SameTables t :=
  ⟨h.goesOn.1, by rw [h.table], fun c => by rw [State.monitor, State.monitor, h.monitors], h.roster, h.own, h.pins⟩

theorem State.startUp_sameTables (s : State) : s.SameTables s.startUp := by
  have hmonitor (c : Channel) : s.startUp.monitor c = (channelOrder.foldl State.startTimer s).monitor c := by
    rw [State.monitor, State.monitor, State.startUp_frame, State.enterListen]
  refine ⟨?_, ?_, fun c => ?_, ?_, ?_, .inl ?_⟩
  case refine_3 =>
    rw [hmonitor, State.monitor_startTimers]
    split <;> rfl
  all_goals rw [State.startUp_frame, State.enterListen]

theorem State.tick_sameTables {s : State} (hrst : s.rst = false) : s.SameTables s.tick := by
  have hmonitor (c : Channel) : s.tick.monitor c = (channelOrder.foldl State.tickMonitor s).monitor c := by
    rw [State.tick_eq hrst]; rfl
  refine ⟨?_, ?_, fun c => ?_, ?_, ?_, .inl ?_⟩
  case refine_3 => rw [hmonitor, State.monitor_tickMonitors]
  all_goals rw [State.tick_eq hrst]

theorem State.countListen_lineSide (s : State) : s.LineSide s.countListen := by
  rw [State.countListen_frame]
  exact State.lineSide_of _ _ _ _ _ _ _ .refl

/-! ### The principle -/

/-- What the events of the line, of a frame and of a timer keep. -/
theorem event_keeps_tables {P : State → Prop} (hsame : ∀ s t : State, s.SameTables t → P s → P t)
    (hchannel : ∀ (c : Channel) (s t : State), s.ChannelEvent c t → P s → P t)
    (hack : ∀ (k o : StationId) (c : Channel) (q : Seq) (s : State), P s → P (s.applyAck k o c q))
    (hframe : ∀ (read : BitVec 54) (o : StationId) (f : Frame) (s : State), judgeFrame read = .accepted o f → o ≠ s.id →
      P s → P (s.applyFrame o f))
    (hslot : ∀ (map : IdSet) (k : StationId) (s : State), P s → P (s.takeSlot map k))
    {c : Instr} {f : State → State} (hf : eventOf c = some f) {s : State} (h : P s) : P (f s) := by
  have hcensus (map : IdSet) (s : State) (h : P s) : P (s.takeCensus map) := by
    unfold State.takeCensus
    induction stationIds.filter (fun k => decide (k.val < s.image.groupSize)) generalizing s with
    | nil => exact h
    | cons k ks ih => exact ih _ (hslot map k s h)
  have hline (s t : State) (ht : s.LineSide t) (h : P s) : P t := hsame s t ht.sameTables h
  cases hc : reachesTable c with
  | false => exact hline s _ (event_lineSide hf hc s) h
  | true =>
    cases c with
    | staleTimerExpiry c =>
      cases hf
      obtain he | ⟨_, _, he⟩ := State.staleExpiry_channelEvent c s
      · rw [he]; exact h
      · exact hchannel c s _ he h
    | censusEnd slots first =>
      cases hf
      have hpast (n : Nat) : P (s.pastCensus slots n) := hline s _ (State.lineSide_of _ _ _ _ _ _ _ .refl) h
      obtain ⟨_, he⟩ | ⟨_, _, ⟨_, _, ⟨_, he⟩ | ⟨_, he⟩⟩ | ⟨_, he⟩⟩ := s.finishCensus_cases slots first <;> rw [he]
      · exact h
      · exact hline _ _ (State.enterQuiet_lineSide _ _ _) (hcensus _ _ (hpast _))
      · exact hcensus _ _ (hline _ _ (State.enterQuiet_lineSide _ _ _) (hpast _))
      · exact hline _ _ (State.countListen_lineSide _) (hcensus _ _ (hpast _))
    | frameSentWhole =>
      cases hf
      have hsent (f : Flight) : P (s.frameSent f) := hline s _ (State.lineSide_of _ _ _ _ _ _ _ .refl) h
      obtain ⟨_, he⟩ | ⟨f, _, ⟨_, o, c, q, _, he⟩ | ⟨_, he⟩⟩ := s.sendWhole_cases <;> rw [he]
      · exact h
      · exact hack _ o c q _ (hsent f)
      · exact hsent f
    | frameJudged read =>
      cases hf
      have hread (j : Judgement) : P (s.frameRead read j) := hline s _ (s.frameRead_lineSide read j) h
      obtain ⟨_, he⟩ | ⟨_, ⟨_, he⟩ | ⟨_, he⟩ | ⟨o, f, hf, ⟨_, _, he⟩ | ⟨_, _, he⟩ | ⟨ho, he⟩⟩⟩ := s.judge_cases read <;>
        rw [he]
      · exact h
      · exact hline _ (State.crcCounted _) (State.lineSide_of _ _ _ _ _ _ _ .refl) (hread .rejected)
      · exact hline _ (State.malformedCounted _) (State.lineSide_of _ _ _ _ _ _ _ .refl) (hread .rejected)
      · exact hread .accepted
      · exact hline _ _ (State.enterQuiet_lineSide _ _ _) (hread .accepted)
      · exact hframe read o f _ hf ho (hread .accepted)
    | _ => exact Bool.noConfusion hc

/-- A property of the id, the table's entries, the monitors but for their timers, the roster and the annunciation unit, that holds
of a station just reset and that the operations of the table keep, is kept by every step. -/
theorem step_keeps_tables {P : State → Prop} (hsame : ∀ s t : State, s.SameTables t → P s → P t)
    (hfresh : ∀ s : State, s.table = Table.reset → s.monitors = Vector.replicate 8 Monitor.reset →
      s.ann = Annunciation.reset → P s)
    (hchannel : ∀ (c : Channel) (s t : State), s.ChannelEvent c t → P s → P t)
    (hshelved : ∀ (c : Channel) (flag : Bool) (s : State), P s → P (s.setShelved c flag))
    (hpurge : ∀ (o : StationId) (s : State), o ≠ s.id → P s → P (s.purge o))
    (hack : ∀ (k o : StationId) (c : Channel) (q : Seq) (s : State), P s → P (s.applyAck k o c q))
    (hframe : ∀ (read : BitVec 54) (o : StationId) (f : Frame) (s : State), judgeFrame read = .accepted o f → o ≠ s.id →
      P s → P (s.applyFrame o f))
    (hslot : ∀ (map : IdSet) (k : StationId) (s : State), P s → P (s.takeSlot map k))
    {s t : State} (h : P s) (hstep : step s = .next t) : P t := by
  have hbeside (s t : State) (h : P s) (hid : t.id = s.id) (hentries : t.table.entries = s.table.entries)
      (hmonitors : t.monitors = s.monitors) (hroster : t.roster = s.roster) (hann : t.ann = s.ann) : P t :=
    hsame s t (State.sameTables_of hid hentries hmonitors hroster hann) h
  refine step_keeps (P := P) (fun s _ _ _ _ _ _ h => hbeside s _ h rfl rfl rfl rfl rfl)
    (fun s straps => hfresh _ rfl rfl rfl) (fun s h => ?_) (fun s t _ h ht => ?_) (fun w s _ h => ?_)
    (fun c f s hf _ h => event_keeps_tables hsame hchannel hack hframe hslot hf h)
    (fun s hrst h => hsame s _ (State.tick_sameTables hrst) h) h hstep
  · exact hsame s _ ⟨rfl, rfl, fun _ => rfl, rfl, rfl, .inr (.inr rfl)⟩ h
  · cases ht with
    | started => exact hsame s _ s.startUp_sameTables h
    | restarted => exact hfresh _ rfl rfl rfl
    | quieted => exact hsame s _ (State.enterQuiet_lineSide _ _ s).sameTables h
    | shelved c flag => exact hshelved c flag s h
    | purged o _ ho => exact hpurge o s ho h
    | _ => exact hbeside s _ h rfl rfl rfl rfl rfl
  · obtain he | ⟨_, _, he⟩ := State.offerWord_channelEvent w s
    · rw [he]; exact h
    · exact hchannel _ s _ he h

end Sys2Proof.Machine
end

section
/-! PROOFS. The condition table keeps distinct keys in order, its room and its entry states (R40 to R43): O5. -/

namespace Sys2Proof.Machine

/-! ### The list of entries -/

theorem Entry.sound_iff (own : StationId) (e : Entry) :
    e.sound own = true ↔ (e.active = true ∨ e.ackedBy = none) ∧ e.level ≠ .normal ∧ (e.origin ≠ own ∨ e.orphaned = false) := by
  simp [Entry.sound, and_assoc]

/-- The entries of a sound table: in key order, within the remote places, each of them sound. -/
def EntriesSound (id : StationId) (es : List Entry) : Prop :=
  es.Pairwise (fun a b => a.index < b.index) ∧ (remoteEntries id es).length ≤ Config.remotePlaces ∧
    ∀ e ∈ es, e.sound id = true

theorem State.tableSound_iff (s : State) : s.tableSound = true ↔ EntriesSound s.id s.table.entries := by
  simp only [State.tableSound, EntriesSound, Bool.and_eq_true, decide_eq_true_eq, List.all_eq_true, and_assoc]

theorem EntriesSound.insert {id : StationId} {es : List Entry} (h : EntriesSound id es) {e : Entry}
    (hnew : ∀ f ∈ es, f.hasKey e.origin e.channel = false) (he : e.sound id = true)
    (hroom : e.origin ≠ id → (remoteEntries id es).length < Config.remotePlaces) : EntriesSound id (insertEntry e es) := by
  obtain ⟨hsorted, hplaces, hall⟩ := h
  refine ⟨insertEntry_sorted hsorted fun f hf hindex => ?_, ?_, fun f hf => ?_⟩
  · have := hnew f hf
    rw [(f.hasKey_iff _ _).mpr hindex] at this
    cases this
  · rw [length_remote_insertEntry]
    split
    · exact hroom ‹_›
    · exact hplaces
  · rcases mem_insertEntry.mp hf with rfl | hf
    · exact he
    · exact hall f hf

theorem EntriesSound.replace {id : StationId} {es : List Entry} (h : EntriesSound id es) {e : Entry}
    (he : e.sound id = true) : EntriesSound id (replaceEntry e es) := by
  obtain ⟨hsorted, hplaces, hall⟩ := h
  have hkeys := map_key_replaceEntry e es
  refine ⟨sorted_congr hkeys hsorted, length_remote_congr id hkeys ▸ hplaces, fun f hf => ?_⟩
  obtain rfl | ⟨hf, _⟩ := mem_replaceEntry hf
  · exact he
  · exact hall f hf

theorem EntriesSound.sublist {id : StationId} {es fs : List Entry} (h : EntriesSound id es) (hsub : fs.Sublist es) :
    EntriesSound id fs := by
  obtain ⟨hsorted, hplaces, hall⟩ := h
  exact ⟨hsorted.sublist hsub, ((hsub.filter _).length_le).trans hplaces, fun e he => hall e (hsub.subset he)⟩

theorem EntriesSound.drop {id : StationId} {es : List Entry} (h : EntriesSound id es) (o : StationId) (c : Channel) :
    EntriesSound id (Machine.dropEntry o c es) :=
  h.sublist List.filter_sublist

/-- The orphaned field of a remote origin's entries may be set to anything. -/
theorem EntriesSound.markOrphans {id : StationId} {es : List Entry} (h : EntriesSound id es) {k : StationId} (hk : k ≠ id)
    (orphaned : Bool) : EntriesSound id (es.map (fun e => if e.origin = k then { e with orphaned := orphaned } else e)) := by
  obtain ⟨hsorted, hplaces, hall⟩ := h
  have hkeys : (es.map (fun e => if e.origin = k then { e with orphaned := orphaned } else e)).map
      (fun f => (f.origin, f.channel)) = es.map (fun f => (f.origin, f.channel)) := by
    rw [List.map_map]
    refine List.map_congr_left fun f _ => ?_
    simp only [Function.comp]
    split <;> rfl
  refine ⟨sorted_congr hkeys hsorted, length_remote_congr id hkeys ▸ hplaces, fun f hf => ?_⟩
  obtain ⟨e, he, rfl⟩ := List.mem_map.mp hf
  obtain ⟨hactive, hlevel, hown⟩ := (Entry.sound_iff id e).mp (hall e he)
  split
  · rename_i ho
    exact (Entry.sound_iff id _).mpr ⟨hactive, hlevel, .inl (ho ▸ hk)⟩
  · exact hall e he

/-! ### The operations of the table -/

/-- Soundness of the table reads the id and the entries alone. -/
theorem State.tableSound_congr {s t : State} (hid : t.id = s.id) (hentries : t.table.entries = s.table.entries)
    (h : s.tableSound = true) : t.tableSound = true := by
  rw [State.tableSound_iff] at h ⊢
  rwa [hid, hentries]

theorem State.addEntry_tableSound {s : State} (h : s.tableSound = true) {e : Entry}
    (hnew : s.table.find e.origin e.channel = none) (he : e.sound s.id = true)
    (hroom : e.origin ≠ s.id → (remoteEntries s.id s.table.entries).length < Config.remotePlaces) :
    (s.addEntry e).tableSound = true := by
  rw [State.tableSound_iff] at h ⊢
  rw [State.addEntry_id, State.addEntry_table]
  exact h.insert (Table.find_none.mp hnew) he hroom

theorem State.storeEntry_tableSound {s : State} (h : s.tableSound = true) {e : Entry} (he : e.sound s.id = true) :
    (s.storeEntry e).tableSound = true := by
  rw [State.tableSound_iff] at h ⊢
  exact h.replace he

theorem State.changeEntry_tableSound {s : State} (h : s.tableSound = true) {e : Entry} (he : e.sound s.id = true) :
    (s.changeEntry e).tableSound = true :=
  State.tableSound_congr (s := s.storeEntry e) (by simp) (by rw [State.changeEntry_table]; rfl)
    (State.storeEntry_tableSound h he)

theorem State.dropEntry_tableSound {s : State} (h : s.tableSound = true) (o : StationId) (c : Channel) :
    (s.dropEntry o c).tableSound = true := by
  rw [State.tableSound_iff] at h ⊢
  exact h.drop o c

theorem State.removeEntry_tableSound {s : State} (h : s.tableSound = true) (e : Entry) (l : Level) (q : Seq)
    (r : RemovalReason) (k : Option StationId) : (s.removeEntry e l q r k).tableSound = true :=
  State.tableSound_congr (s := s.dropEntry e.origin e.channel) (by simp) (by rw [State.removeEntry_table]; rfl)
    (State.dropEntry_tableSound h _ _)

theorem State.makeStale_tableSound {s : State} (h : s.tableSound = true) (o : StationId) (c : Channel) :
    (s.makeStale o c).tableSound = true :=
  State.tableSound_congr (by rw [State.makeStale_frame]) (by rw [State.makeStale_frame]) h

theorem State.makeStaleAll_tableSound {s : State} (h : s.tableSound = true) (keys : List (StationId × Channel)) :
    (s.makeStaleAll keys).tableSound = true := by
  induction keys generalizing s with
  | nil => exact h
  | cons k ks ih => exact ih (State.makeStale_tableSound h _ _)

theorem State.removeAll_tableSound {s : State} (h : s.tableSound = true) (es : List Entry) (r : RemovalReason) :
    (s.removeAll es r).tableSound = true := by
  induction es generalizing s with
  | nil => exact h
  | cons e es ih => exact ih (State.removeEntry_tableSound h e _ _ _ _)

/-- An entry of a sound table overwritten by a record that is not over (R45, R54, R55). -/
theorem Entry.overwrite_sound {own : StationId} {e : Entry} (he : e.sound own = true) {r : Record} (round : Counter)
    (hlevel : r.level ≠ .normal) (hr : r.active = true ∨ r.ackedBy = none) : (e.overwrite r round).sound own = true := by
  obtain ⟨_, _, hown⟩ := (Entry.sound_iff own e).mp he
  exact (Entry.sound_iff own _).mpr ⟨hr, hlevel, hown⟩

/-! ### Adoptions -/

theorem State.adoptEntry_tableSound {s : State} (h : s.tableSound = true) (c : Channel) {r : Record}
    (hlevel : r.level ≠ .normal) : (s.adoptEntry c r).tableSound = true := by
  obtain ⟨hfind, hactive, he⟩ | ⟨_, _, he⟩ | ⟨e, _, _, _, he⟩ | ⟨e, hfind, hr, he⟩ := s.adoptEntry_cases c r <;> rw [he]
  · refine State.addEntry_tableSound h hfind ?_ fun hne => absurd rfl hne
    exact (Entry.sound_iff _ _).mpr ⟨.inl hactive, hlevel, .inr rfl⟩
  · exact h
  · exact State.makeStale_tableSound (State.removeEntry_tableSound h e _ _ _ _) _ _
  · have hsound := (s.tableSound_iff.mp h).2.2 e (Table.find_some hfind).1
    exact State.makeStale_tableSound (State.changeEntry_tableSound h (Entry.overwrite_sound hsound _ hlevel hr)) _ _

theorem State.adoptFrom_tableSound {s : State} (h : s.tableSound = true) {m : Monitor} (c : Channel) {y : Level}
    (cause : FaultCause) (hy : y ≠ m.level) : (s.adoptFrom m c y cause).tableSound = true :=
  State.adoptEntry_tableSound (s := s.setMonitor c (m.adopting y cause)) h c (Record.adopt_level_ne_normal _ _ hy)

theorem State.ChannelEvent.tableSound {c : Channel} {s t : State} (ht : s.ChannelEvent c t) (h : s.tableSound = true) :
    t.tableSound = true := by
  cases ht with
  | same => exact h
  | monitor => exact h
  | adopts m y cause hlevel _ hy _ => exact State.adoptFrom_tableSound h c cause (hlevel ▸ hy)

theorem State.setShelved_tableSound {s : State} (h : s.tableSound = true) (c : Channel) (flag : Bool) :
    (s.setShelved c flag).tableSound = true := by
  obtain ⟨_, he⟩ | ⟨_, _, he⟩ | ⟨e, _, hfind, he⟩ := s.setShelved_cases c flag <;> rw [he]
  · exact h
  · exact h
  · have hsound := (s.tableSound_iff.mp h).2.2 e (Table.find_some hfind).1
    have hshelved : (e.shelving ((s.monitor c).shelving flag).record s.line.round).sound s.id = true := hsound
    exact State.tableSound_congr rfl rfl (State.makeStale_tableSound
      (State.changeEntry_tableSound (s := s.setMonitor c ((s.monitor c).shelving flag)) h hshelved) s.id c)

/-! ### Frames of the line -/

theorem State.passAck_tableSound {s : State} (h : s.tableSound = true) (o : StationId) (c : Channel) (k : StationId) :
    (s.passAck o c k).tableSound = true := by
  unfold State.passAck
  split <;> exact h

theorem State.setAcked_tableSound {s : State} (h : s.tableSound = true) {e : Entry} (he : e ∈ s.table.entries)
    (hactive : e.active = true) (k : StationId) : (s.setAcked e k).tableSound = true := by
  obtain ⟨_, hlevel, hown⟩ := (Entry.sound_iff _ _).mp ((s.tableSound_iff.mp h).2.2 e he)
  refine State.passAck_tableSound ?_ _ _ _
  refine State.tableSound_congr (s := s.storeEntry { e with ackedBy := some k, changedRound := s.line.round }) (by simp)
    (by simp) (State.storeEntry_tableSound h ?_)
  exact (Entry.sound_iff _ _).mpr ⟨.inl hactive, hlevel, hown⟩

theorem State.removeAcked_tableSound {s : State} (h : s.tableSound = true) (e : Entry) (k : StationId) :
    (s.removeAcked e k).tableSound = true := by
  have hpassed := State.passAck_tableSound (State.removeEntry_tableSound h e e.level e.seq .ackedAfterClear (some k))
    e.origin e.channel k
  unfold State.removeAcked
  simp only
  split
  · exact hpassed
  · exact State.makeStale_tableSound hpassed _ _

theorem State.applyAck_tableSound {s : State} (h : s.tableSound = true) (k o : StationId) (c : Channel) (q : Seq) :
    (s.applyAck k o c q).tableSound = true := by
  obtain ⟨_, he⟩ | ⟨e, hfind, _, _, ⟨hactive, he⟩ | ⟨_, he⟩⟩ := s.applyAck_cases k o c q <;> rw [he]
  · exact h
  · exact State.setAcked_tableSound h (Table.find_some hfind).1 hactive k
  · exact State.removeAcked_tableSound h e k

/-- The victim is a remote entry, so its removal makes room for one more (R61, R62). -/
theorem State.evict_makes_room {s : State} (h : s.tableSound = true) {v : Entry}
    (hv : firstVictim (remoteEntries s.id s.table.entries) = some v) :
    (remoteEntries s.id (s.evict v).table.entries).length < Config.remotePlaces := by
  obtain ⟨_, hplaces, _⟩ := s.tableSound_iff.mp h
  have hmem := firstVictim_mem hv
  refine lt_of_lt_of_le ?_ hplaces
  have heq : remoteEntries s.id (s.evict v).table.entries =
      (remoteEntries s.id s.table.entries).filter (fun f => !f.hasKey v.origin v.channel) := by
    show List.filter _ (List.filter _ _) = List.filter _ (List.filter _ _)
    rw [List.filter_filter, List.filter_filter]
    simp only [Bool.and_comm]
  rw [heq]
  exact List.length_filter_lt_length_iff_exists.mpr ⟨v, hmem, by simp⟩

theorem State.createRemote_tableSound {s : State} (h : s.tableSound = true) {o : StationId} {c : Channel} {r : Record}
    (hnew : s.table.find o c = none) (hlevel : r.level ≠ .normal) (hr : r.active = true ∨ r.ackedBy = none)
    (ho : o ≠ s.id) : (s.createRemote o c r).tableSound = true := by
  have he (t : State) (ht : t.id = s.id) :
      (Entry.ofRecord o c r (s.holdsAbsent o) s.line.round).sound t.id = true :=
    (Entry.sound_iff _ _).mpr ⟨hr, hlevel, .inl (ht ▸ ho)⟩
  obtain ⟨hroom, hc⟩ | ⟨_, v, hv, ⟨_, hc⟩ | ⟨_, hc⟩⟩ := s.createRemote_cases o c r <;> rw [hc]
  · exact State.addEntry_tableSound h hnew (he s rfl) fun _ => hroom
  · refine State.makeStale_tableSound (State.addEntry_tableSound ?_ ?_ (he (s.evict v) rfl) fun _ => ?_) _ _
    · exact State.dropEntry_tableSound h _ _
    · refine Table.find_none.mpr fun f hf => Table.find_none.mp hnew f ?_
      exact (mem_dropEntry.mp hf).1
    · exact State.evict_makes_room h hv
  · exact h

/-- What the kinds allow is what an entry of the table may hold (R140, check 4). -/
theorem announcementValid_level {kind : NoticeKind} {r : Record} (h : announcementValid kind r = true) :
    r.level ≠ .normal := by
  obtain ⟨hlevel, _⟩ := Bool.and_eq_true_iff.mp h
  exact of_decide_eq_true hlevel

theorem Record.not_isOver {r : Record} (h : ¬r.isOver) : r.active = true ∨ r.ackedBy = none := by
  cases ha : r.active
  · refine .inr ?_
    simpa [Record.isOver, ha] using h
  · exact .inl rfl

theorem State.applyReplay_tableSound {s : State} (h : s.tableSound = true) (o : StationId) (g : BitVec 6) (w : BitVec 3)
    (p : BitVec 14) : (s.applyReplay o g w p).tableSound = true := by
  rw [State.applyReplay_eq]
  have hnoted : (s.noteMismatch o g w p).tableSound = true :=
    State.tableSound_congr (by rw [State.noteMismatch_frame]) (by rw [State.noteMismatch_frame]) h
  exact State.makeStaleAll_tableSound (s := State.answerReplay o _)
    (State.removeAll_tableSound hnoted (s.table.ofOrigin o) .rejoin) _

theorem State.applyFrame_tableSound {s : State} (h : s.tableSound = true) {read : BitVec 54} {o : StationId} {f : Frame}
    (hf : judgeFrame read = .accepted o f) (ho : o ≠ s.id) : (s.applyFrame o f).tableSound = true := by
  cases f with
  | announcement kind c r =>
    have hvalid := announcementValid_of_judgeFrame hf
    have hlevel := announcementValid_level hvalid
    obtain ⟨_, _, he⟩ | ⟨hnew, hr, he⟩ | ⟨e, _, _, he⟩ | ⟨e, hfind, _, hr, he⟩ | ⟨e, _, _, _, he⟩ :=
      s.applyAnnouncement_cases o kind c r hvalid <;> rw [he]
    · exact h
    · exact State.createRemote_tableSound h hnew hlevel (Record.not_isOver hr) ho
    · exact h
    · have hsound := (s.tableSound_iff.mp h).2.2 e (Table.find_some hfind).1
      exact State.makeStale_tableSound
        (State.changeEntry_tableSound h (Entry.overwrite_sound hsound _ hlevel (Record.not_isOver hr))) _ _
    · exact State.makeStale_tableSound (State.removeEntry_tableSound h e _ _ _ _) _ _
  | ack target c q => exact State.applyAck_tableSound h o target c q
  | replay g w p => exact State.applyReplay_tableSound h o g w p

/-! ### The census -/

theorem State.takeSlot_tableSound {s : State} (h : s.tableSound = true) (map : IdSet) (k : StationId) :
    (s.takeSlot map k).tableSound = true := by
  have hmark (orphaned : Bool) (hk : k ≠ s.id) (n : Nat) (p : Peer) :
      ((s.setPeer k p).markOrphans k orphaned n).tableSound = true := by
    rw [State.tableSound_iff] at h ⊢
    exact h.markOrphans hk orphaned
  unfold State.takeSlot State.slotDriven State.slotReleased
  simp only
  split
  · split
    · rename_i hjoin
      exact hmark false hjoin.2 _ _
    · exact h
  · split
    · split
      · exact hmark true ‹_› _ _
      · exact h
    · exact h

/-- Settles O5: each operation of the table keeps it sorted by key, within its places and sound entry by entry, given what its
caller has checked; everything else leaves the entries alone. -/
theorem tableStaysSound : Obligations.TableStaysSound := by
  unfold Obligations.TableStaysSound
  intro s t hs hstep
  refine step_keeps_tables (P := fun s => s.tableSound = true) (fun s t ht h => State.tableSound_congr ht.id ht.entries h)
    (fun s htable _ _ => ?_) (fun c s t ht h => ht.tableSound h) (fun c flag s h => State.setShelved_tableSound h c flag)
    (fun o s _ h => ?_) (fun k o c q s h => State.applyAck_tableSound h k o c q)
    (fun read o f s hf ho h => State.applyFrame_tableSound h hf ho) (fun map k s h => State.takeSlot_tableSound h map k)
    hs hstep
  · rw [State.tableSound_iff, htable]
    exact ⟨List.Pairwise.nil, Nat.zero_le _, nofun⟩
  · exact State.makeStaleAll_tableSound (State.removeAll_tableSound h _ _) _

end Sys2Proof.Machine
end

section
/-! PROOFS. A remote entry is orphaned exactly while the roster holds its origin ABSENT (R64, R65): O6. -/

namespace Sys2Proof.Machine

/-! ### The roster -/

theorem State.peer_setPeer (k j : StationId) (p : Peer) (s : State) :
    (s.setPeer k p).peer j = if k = j then p else s.peer j := by
  simp only [State.peer, State.setPeer, Fin.getElem_fin, Vector.getElem_set, Fin.ext_iff]

theorem State.holdsAbsent_setPeer (k j : StationId) (p : Peer) (s : State) :
    (s.setPeer k p).holdsAbsent j = if k = j then decide (p.presence = .absent) else s.holdsAbsent j := by
  simp only [State.holdsAbsent, State.peer_setPeer]
  split <;> rfl

theorem State.holdsAbsent_congr {s t : State} (h : t.roster = s.roster) (k : StationId) : t.holdsAbsent k = s.holdsAbsent k := by
  rw [State.holdsAbsent, State.holdsAbsent, State.peer, State.peer, h]

/-! ### Entries whose orphaned field follows the roster -/

/-- An entry whose orphaned field follows the roster, where the entry is remote (R64). -/
def State.follow (s : State) (e : Entry) : Prop := e.origin = s.id ∨ e.orphaned = s.holdsAbsent e.origin

theorem State.orphansSound_iff (s : State) : s.orphansSound = true ↔ ∀ e ∈ s.table.entries, s.follow e := by
  simp [State.orphansSound, State.follow]

/-- Following the roster reads the id and the roster alone. -/
theorem State.follow_congr {s t : State} (hid : t.id = s.id) (hroster : t.roster = s.roster) (e : Entry) :
    t.follow e ↔ s.follow e := by
  rw [State.follow, State.follow, hid, State.holdsAbsent_congr hroster]

theorem State.orphansSound_of {s t : State} (h : s.orphansSound = true) (hid : t.id = s.id) (hroster : t.roster = s.roster)
    (hentries : ∀ e ∈ t.table.entries, e ∈ s.table.entries ∨ s.follow e) : t.orphansSound = true := by
  rw [State.orphansSound_iff] at h ⊢
  intro e he
  rw [State.follow_congr hid hroster]
  exact (hentries e he).elim (h e) fun hf => hf

theorem State.orphansSound_congr {s t : State} (hid : t.id = s.id) (hroster : t.roster = s.roster)
    (hentries : t.table.entries = s.table.entries) (h : s.orphansSound = true) : t.orphansSound = true :=
  State.orphansSound_of h hid hroster fun e he => .inl (by rwa [hentries] at he)

theorem State.addEntry_orphansSound {s : State} (h : s.orphansSound = true) {e : Entry} (he : s.follow e) :
    (s.addEntry e).orphansSound = true := by
  refine State.orphansSound_of h (by simp) (by simp) fun f hf => ?_
  rw [State.addEntry_table] at hf
  obtain rfl | hf := mem_insertEntry.mp hf
  · exact .inr he
  · exact .inl hf

theorem State.storeEntry_orphansSound {s : State} (h : s.orphansSound = true) {e : Entry} (he : s.follow e) :
    (s.storeEntry e).orphansSound = true := by
  refine State.orphansSound_of h rfl rfl fun f hf => ?_
  obtain rfl | ⟨hf, _⟩ := mem_replaceEntry hf
  · exact .inr he
  · exact .inl hf

theorem State.changeEntry_orphansSound {s : State} (h : s.orphansSound = true) {e : Entry} (he : s.follow e) :
    (s.changeEntry e).orphansSound = true :=
  State.orphansSound_congr (s := s.storeEntry e) (by simp) (by simp) (by rw [State.changeEntry_table]; rfl)
    (State.storeEntry_orphansSound h he)

theorem State.dropEntry_orphansSound {s : State} (h : s.orphansSound = true) (o : StationId) (c : Channel) :
    (s.dropEntry o c).orphansSound = true :=
  State.orphansSound_of h rfl rfl fun _ hf => .inl (mem_dropEntry.mp hf).1

theorem State.removeEntry_orphansSound {s : State} (h : s.orphansSound = true) (e : Entry) (l : Level) (q : Seq)
    (r : RemovalReason) (k : Option StationId) : (s.removeEntry e l q r k).orphansSound = true :=
  State.orphansSound_congr (s := s.dropEntry e.origin e.channel) (by simp) (by simp)
    (by rw [State.removeEntry_table]; rfl) (State.dropEntry_orphansSound h _ _)

theorem State.makeStale_orphansSound {s : State} (h : s.orphansSound = true) (o : StationId) (c : Channel) :
    (s.makeStale o c).orphansSound = true :=
  State.orphansSound_congr (by rw [State.makeStale_frame]) (by rw [State.makeStale_frame]) (by rw [State.makeStale_frame]) h

theorem State.makeStaleAll_orphansSound {s : State} (h : s.orphansSound = true) (keys : List (StationId × Channel)) :
    (s.makeStaleAll keys).orphansSound = true := by
  induction keys generalizing s with
  | nil => exact h
  | cons k ks ih => exact ih (State.makeStale_orphansSound h _ _)

theorem State.removeAll_orphansSound {s : State} (h : s.orphansSound = true) (es : List Entry) (r : RemovalReason) :
    (s.removeAll es r).orphansSound = true := by
  induction es generalizing s with
  | nil => exact h
  | cons e es ih => exact ih (State.removeEntry_orphansSound h e _ _ _ _)

/-! ### Adoptions and shelving -/

theorem State.adoptEntry_orphansSound {s : State} (h : s.orphansSound = true) (c : Channel) (r : Record) :
    (s.adoptEntry c r).orphansSound = true := by
  obtain ⟨_, _, he⟩ | ⟨_, _, he⟩ | ⟨e, _, _, _, he⟩ | ⟨e, hfind, _, he⟩ := s.adoptEntry_cases c r <;> rw [he]
  · exact State.addEntry_orphansSound h (.inl rfl)
  · exact h
  · exact State.makeStale_orphansSound (State.removeEntry_orphansSound h e _ _ _ _) _ _
  · have hown : s.follow (e.overwrite r s.line.round) := .inl (Table.find_some hfind).2.1
    exact State.makeStale_orphansSound (State.changeEntry_orphansSound h hown) _ _

theorem State.ChannelEvent.orphansSound {c : Channel} {s t : State} (ht : s.ChannelEvent c t) (h : s.orphansSound = true) :
    t.orphansSound = true := by
  cases ht with
  | same => exact h
  | monitor => exact h
  | adopts m y cause => exact State.adoptEntry_orphansSound (s := s.setMonitor c (m.adopting y cause)) h c _

theorem State.setShelved_orphansSound {s : State} (h : s.orphansSound = true) (c : Channel) (flag : Bool) :
    (s.setShelved c flag).orphansSound = true := by
  obtain ⟨_, he⟩ | ⟨_, _, he⟩ | ⟨e, _, hfind, he⟩ := s.setShelved_cases c flag <;> rw [he]
  · exact h
  · exact h
  · have hown : s.follow (e.shelving ((s.monitor c).shelving flag).record s.line.round) := .inl (Table.find_some hfind).2.1
    exact State.orphansSound_congr rfl rfl rfl (State.makeStale_orphansSound
      (State.changeEntry_orphansSound (s := s.setMonitor c ((s.monitor c).shelving flag)) h hown) s.id c)

/-! ### Frames of the line -/

theorem State.passAck_orphansSound {s : State} (h : s.orphansSound = true) (o : StationId) (c : Channel) (k : StationId) :
    (s.passAck o c k).orphansSound = true := by
  unfold State.passAck
  split <;> exact h

theorem State.applyAck_orphansSound {s : State} (h : s.orphansSound = true) (k o : StationId) (c : Channel) (q : Seq) :
    (s.applyAck k o c q).orphansSound = true := by
  obtain ⟨_, he⟩ | ⟨e, hfind, _, _, ⟨_, he⟩ | ⟨_, he⟩⟩ := s.applyAck_cases k o c q <;> rw [he]
  · exact h
  · have hfollow : s.follow { e with ackedBy := some k, changedRound := s.line.round } :=
      (s.orphansSound_iff.mp h) e (Table.find_some hfind).1
    exact State.passAck_orphansSound (State.orphansSound_congr (by simp) (by simp) (by simp)
      (State.storeEntry_orphansSound h hfollow)) _ _ _
  · have hpassed := State.passAck_orphansSound (State.removeEntry_orphansSound h e e.level e.seq .ackedAfterClear (some k))
      e.origin e.channel k
    unfold State.removeAcked
    simp only
    split
    · exact hpassed
    · exact State.makeStale_orphansSound hpassed _ _

theorem State.createRemote_orphansSound {s : State} (h : s.orphansSound = true) (o : StationId) (c : Channel) (r : Record) :
    (s.createRemote o c r).orphansSound = true := by
  have hnew : s.follow (Entry.ofRecord o c r (s.holdsAbsent o) s.line.round) := .inr rfl
  obtain ⟨_, hc⟩ | ⟨_, v, _, ⟨_, hc⟩ | ⟨_, hc⟩⟩ := s.createRemote_cases o c r <;> rw [hc]
  · exact State.addEntry_orphansSound h hnew
  · exact State.makeStale_orphansSound (State.addEntry_orphansSound (s := s.evict v)
      (State.dropEntry_orphansSound h _ _) hnew) _ _
  · exact h

theorem State.applyFrame_orphansSound {s : State} (h : s.orphansSound = true) {read : BitVec 54} {o : StationId} {f : Frame}
    (hf : judgeFrame read = .accepted o f) : (s.applyFrame o f).orphansSound = true := by
  cases f with
  | announcement kind c r =>
    obtain ⟨_, _, he⟩ | ⟨_, _, he⟩ | ⟨e, _, _, he⟩ | ⟨e, hfind, _, _, he⟩ | ⟨e, _, _, _, he⟩ :=
      s.applyAnnouncement_cases o kind c r (announcementValid_of_judgeFrame hf) <;> rw [he]
    · exact h
    · exact State.createRemote_orphansSound h o c r
    · exact h
    · have hfollow : s.follow (e.overwrite r s.line.round) := (s.orphansSound_iff.mp h) e (Table.find_some hfind).1
      exact State.makeStale_orphansSound (State.changeEntry_orphansSound h hfollow) _ _
    · exact State.makeStale_orphansSound (State.removeEntry_orphansSound h e _ _ _ _) _ _
  | ack target c q => exact State.applyAck_orphansSound h o target c q
  | replay g w p =>
    rw [State.applyFrame, State.applyReplay_eq]
    have hnoted : (s.noteMismatch o g w p).orphansSound = true :=
      State.orphansSound_congr (by rw [State.noteMismatch_frame]) (by rw [State.noteMismatch_frame])
        (by rw [State.noteMismatch_frame]) h
    exact State.makeStaleAll_orphansSound (s := State.answerReplay o _)
      (State.removeAll_orphansSound hnoted (s.table.ofOrigin o) .rejoin) _

/-! ### The census (R149, R150) -/

/-- A slot that changes whether its station is ABSENT marks that station's entries; another slot changes nothing of it. -/
theorem State.takeSlot_orphansSound {s : State} (h : s.orphansSound = true) (map : IdSet) (k : StationId) :
    (s.takeSlot map k).orphansSound = true := by
  have hmark (p : Peer) (orphaned : Bool) (hp : orphaned = decide (p.presence = .absent)) (n : Nat) :
      ((s.setPeer k p).markOrphans k orphaned n).orphansSound = true := by
    rw [State.orphansSound_iff] at h ⊢
    intro f hf
    obtain ⟨e, he, rfl⟩ := List.mem_map.mp hf
    split
    · rename_i hk
      exact .inr (by
        show orphaned = (s.setPeer k p).holdsAbsent e.origin
        rw [State.holdsAbsent_setPeer, if_pos hk.symm, hp])
    · rename_i hk
      refine (h e he).imp (fun ho => ho) fun ho => ?_
      show e.orphaned = (s.setPeer k p).holdsAbsent e.origin
      rw [State.holdsAbsent_setPeer, if_neg (Ne.symm hk), ho]
  have hkeep (p : Peer) (hp : k = s.id ∨ p.presence = (s.peer k).presence) : (s.setPeer k p).orphansSound = true := by
    rw [State.orphansSound_iff] at h ⊢
    intro e he
    by_cases hk : e.origin = k
    · rcases hp with hp | hp
      · exact .inl (hk.trans hp)
      · refine (h e he).imp (fun ho => ho) fun ho => ?_
        rw [State.holdsAbsent_setPeer, if_pos hk.symm, hp, ho, hk]
        rfl
    · refine (h e he).imp (fun ho => ho) fun ho => ?_
      rw [State.holdsAbsent_setPeer, if_neg (Ne.symm hk), ho]
  unfold State.takeSlot State.slotDriven State.slotReleased
  simp only
  split
  · split
    · exact hmark _ false rfl _
    · rename_i hnot
      refine hkeep _ ?_
      by_cases hk : k = s.id
      · exact .inl hk
      · refine .inr ?_
        cases hp : (s.peer k).presence
        · exact absurd ⟨hp, hk⟩ hnot
        · rfl
  · split
    · split
      · exact hmark _ true rfl _
      · exact hkeep _ (.inl (not_not.mp ‹_›))
    · exact hkeep _ (.inr rfl)

/-- Settles O6: an entry of a frame is created with what the roster says of its origin, and a census that changes what it says marks
that origin's entries. -/
theorem orphansFollowTheRoster : Obligations.OrphansFollowTheRoster := by
  unfold Obligations.OrphansFollowTheRoster
  intro s t hs hstep
  refine step_keeps_tables (P := fun s => s.orphansSound = true)
    (fun s t ht h => State.orphansSound_congr ht.id ht.roster ht.entries h) (fun s htable _ _ => ?_)
    (fun c s t ht h => ht.orphansSound h) (fun c flag s h => State.setShelved_orphansSound h c flag) (fun o s _ h => ?_)
    (fun k o c q s h => State.applyAck_orphansSound h k o c q) (fun read o f s hf _ h => State.applyFrame_orphansSound h hf)
    (fun map k s h => State.takeSlot_orphansSound h map k) hs hstep
  · rw [State.orphansSound_iff, htable]
    exact nofun
  · exact State.makeStaleAll_orphansSound (State.removeAll_orphansSound h _ _) _

end Sys2Proof.Machine
end

section
/-! PROOFS. The own-origin entries: what is about another station leaves them, and with them the monitors and the own contribution,
as they are. So a property of these alone is kept by every step if an adoption, a shelving and an ACK of an own entry keep it. -/

namespace Sys2Proof.Machine

/-! ### The own-origin entries of a list -/

/-- The entries of this station's own channels. -/
def ownEntries (id : StationId) (entries : List Entry) : List Entry := entries.filter (fun e => decide (e.origin = id))

theorem ownEntries_insertEntry {id : StationId} {e : Entry} (h : e.origin ≠ id) (es : List Entry) :
    ownEntries id (insertEntry e es) = ownEntries id es := by
  induction es with
  | nil => simp [insertEntry, ownEntries, h]
  | cons f fs ih =>
    unfold insertEntry
    split
    · simp [ownEntries, h]
    · simp only [ownEntries, List.filter_cons] at ih ⊢
      rw [ih]

theorem ownEntries_map {id : StationId} {f : Entry → Entry} {es : List Entry}
    (h : ∀ e ∈ es, if e.origin = id then f e = e else (f e).origin ≠ id) : ownEntries id (es.map f) = ownEntries id es := by
  induction es with
  | nil => rfl
  | cons e es ih =>
    have he := h e List.mem_cons_self
    have hes := ih fun e he => h e (List.mem_cons_of_mem _ he)
    simp only [ownEntries, List.map_cons, List.filter_cons] at hes ⊢
    by_cases ho : e.origin = id
    · rw [if_pos ho] at he
      rw [he, hes]
    · rw [if_neg ho] at he
      rw [hes, decide_eq_false he, decide_eq_false ho]
      rfl

theorem ownEntries_replaceEntry {id : StationId} {e : Entry} (h : e.origin ≠ id) (es : List Entry) :
    ownEntries id (replaceEntry e es) = ownEntries id es := by
  refine ownEntries_map fun f _ => ?_
  by_cases hk : f.hasKey e.origin e.channel = true
  · rw [Entry.hasKey_eq_decide, decide_eq_true_eq] at hk
    rw [if_neg (hk.1 ▸ h), Entry.hasKey_eq_decide, if_pos (decide_eq_true hk)]
    exact h
  · rw [if_neg hk]
    split
    · rfl
    · assumption

theorem ownEntries_dropEntry {id o : StationId} (h : o ≠ id) (c : Channel) (es : List Entry) :
    ownEntries id (dropEntry o c es) = ownEntries id es := by
  unfold ownEntries dropEntry
  rw [List.filter_filter]
  refine List.filter_congr fun e _ => ?_
  by_cases ho : e.origin = id
  · simp [Entry.hasKey, ho, Ne.symm h]
  · simp [ho]

theorem ownContribution_eq (id : StationId) (es : List Entry) :
    ownContribution id es =
      BitVec.ofNat 3 (((ownEntries id es).filter (fun e => !e.shelved)).foldl (fun m e => max m e.code) 0) := by
  unfold ownContribution ownEntries
  rw [List.filter_filter]
  simp only [Bool.and_comm]

theorem Table.find_own (t : Table) (id : StationId) (c : Channel) :
    t.find id c = (ownEntries id t.entries).find? (fun e => e.hasKey id c) := by
  rw [Table.find, ownEntries, List.find?_filter]
  congr 1
  funext e
  by_cases ho : e.origin = id <;> simp [Entry.hasKey, ho]

/-! ### Changes that are not about this station -/

/-- The own-origin entries, the monitors but for their timers and the own contribution stay; the pins follow the own contribution,
or show a sweep, or stay. -/
structure State.SameOwn (s t : State) : Prop where
  id : t.id = s.id
  entries : ownEntries s.id t.table.entries = ownEntries s.id s.table.entries
  monitors : ∀ c, t.monitor c = { s.monitor c with staleTimer := (t.monitor c).staleTimer }
  own : t.ann.own = s.ann.own
  pins : t.ann = s.ann ∨ t.ann.link = true ∨ t.ann.code = t.ann.own

theorem State.SameTables.sameOwn {s t : State} (h : s.SameTables t) : s.SameOwn t :=
  ⟨h.id, by rw [h.entries], h.monitors, h.own, h.pins⟩

theorem State.SameOwn.trans {s t u : State} (hst : s.SameOwn t) (htu : t.SameOwn u) : s.SameOwn u := by
  refine ⟨htu.id.trans hst.id, ?_, fun c => ?_, htu.own.trans hst.own, ?_⟩
  · have h := htu.entries
    rw [hst.id] at h
    exact h.trans hst.entries
  · rw [htu.monitors c, hst.monitors c]
  · rcases htu.pins with h | h
    · rw [h]; exact hst.pins
    · exact .inr h

theorem State.sameOwn_of {s t : State} (hid : t.id = s.id)
    (hentries : ownEntries s.id t.table.entries = ownEntries s.id s.table.entries) (hmonitors : t.monitors = s.monitors)
    (hann : t.ann = s.ann) : s.SameOwn t :=
  ⟨hid, hentries, fun c => by rw [State.monitor, State.monitor, hmonitors], by rw [hann], .inl hann⟩

theorem State.SameOwn.refl (s : State) : s.SameOwn s := State.sameOwn_of rfl rfl rfl rfl

theorem State.makeStale_sameOwn (o : StationId) (c : Channel) (s : State) : s.SameOwn (s.makeStale o c) := by
  rw [State.makeStale_frame]
  exact State.sameOwn_of rfl rfl rfl rfl

theorem State.makeStaleAll_sameOwn (keys : List (StationId × Channel)) (s : State) : s.SameOwn (s.makeStaleAll keys) := by
  induction keys generalizing s with
  | nil => exact .refl s
  | cons k ks ih => exact (s.makeStale_sameOwn _ _).trans (ih _)

theorem State.handToAnnunciation_of_ne {s : State} {o : StationId} (h : o ≠ s.id) : s.handToAnnunciation o = s := if_neg h

theorem State.SameOwn.handed {s t : State} (hst : s.SameOwn t) {o : StationId} (h : o ≠ s.id) :
    s.SameOwn (t.handToAnnunciation o) := by
  rw [State.handToAnnunciation_of_ne (hst.id ▸ h)]
  exact hst

theorem State.addEntry_sameOwn {s : State} {e : Entry} (h : e.origin ≠ s.id) : s.SameOwn (s.addEntry e) := by
  unfold State.addEntry
  refine State.SameOwn.handed ?_ h
  exact State.sameOwn_of rfl (ownEntries_insertEntry h _) rfl rfl

theorem State.changeEntry_sameOwn {s : State} {e : Entry} (h : e.origin ≠ s.id) : s.SameOwn (s.changeEntry e) := by
  unfold State.changeEntry
  refine State.SameOwn.handed ?_ h
  exact State.sameOwn_of rfl (ownEntries_replaceEntry h _) rfl rfl

theorem State.removeEntry_sameOwn {s : State} {e : Entry} (h : e.origin ≠ s.id) (l : Level) (q : Seq) (r : RemovalReason)
    (k : Option StationId) : s.SameOwn (s.removeEntry e l q r k) := by
  unfold State.removeEntry
  refine State.SameOwn.handed ?_ h
  exact State.sameOwn_of rfl (ownEntries_dropEntry h _ _) rfl rfl

theorem State.removeAll_sameOwn {es : List Entry} {s : State} (h : ∀ e ∈ es, e.origin ≠ s.id) (r : RemovalReason) :
    s.SameOwn (s.removeAll es r) := by
  induction es generalizing s with
  | nil => exact .refl s
  | cons e es ih =>
    have hfirst := State.removeEntry_sameOwn (h e List.mem_cons_self) e.level e.seq r e.ackedBy
    exact hfirst.trans (ih fun f hf => hfirst.id ▸ h f (List.mem_cons_of_mem _ hf))

theorem Table.ofOrigin_remote {t : Table} {o id : StationId} (h : o ≠ id) : ∀ e ∈ t.ofOrigin o, e.origin ≠ id :=
  fun _ he => (Table.mem_ofOrigin.mp he).2 ▸ h

theorem State.purge_sameOwn {s : State} {o : StationId} (h : o ≠ s.id) : s.SameOwn (s.purge o) :=
  (State.removeAll_sameOwn (Table.ofOrigin_remote h) .purge).trans (State.makeStaleAll_sameOwn _ _)

theorem State.createRemote_sameOwn {s : State} {o : StationId} (h : o ≠ s.id) (c : Channel) (r : Record) :
    s.SameOwn (s.createRemote o c r) := by
  obtain ⟨_, hc⟩ | ⟨_, v, hv, ⟨_, hc⟩ | ⟨_, hc⟩⟩ := s.createRemote_cases o c r <;> rw [hc]
  · exact State.addEntry_sameOwn h
  · have hvictim : v.origin ≠ s.id := (mem_remoteEntries.mp (firstVictim_mem hv)).2
    have hevicted : s.SameOwn (s.evict v) := State.sameOwn_of rfl (ownEntries_dropEntry hvictim _ _) rfl rfl
    exact hevicted.trans ((State.addEntry_sameOwn (s := s.evict v) h).trans (State.makeStale_sameOwn _ _ _))
  · exact State.sameOwn_of rfl rfl rfl rfl

theorem State.applyReplay_sameOwn {s : State} {o : StationId} (h : o ≠ s.id) (g : BitVec 6) (w : BitVec 3) (p : BitVec 14) :
    s.SameOwn (s.applyReplay o g w p) := by
  rw [State.applyReplay_eq]
  have hnoted : s.SameOwn (s.noteMismatch o g w p) := by
    rw [State.noteMismatch_frame]
    exact State.sameOwn_of rfl rfl rfl rfl
  have hremoved := State.removeAll_sameOwn (s := s.noteMismatch o g w p) (es := s.table.ofOrigin o)
    (hnoted.id ▸ Table.ofOrigin_remote h) .rejoin
  have hanswered (t : State) : t.SameOwn (t.answerReplay o) := State.sameOwn_of rfl rfl rfl rfl
  exact hnoted.trans (hremoved.trans ((hanswered _).trans (State.makeStaleAll_sameOwn _ _)))

theorem State.applyAck_sameOwn {s : State} {o : StationId} (h : o ≠ s.id) (k : StationId) (c : Channel) (q : Seq) :
    s.SameOwn (s.applyAck k o c q) := by
  obtain ⟨_, he⟩ | ⟨e, hfind, _, _, hact⟩ := s.applyAck_cases k o c q
  · rw [he]; exact .refl s
  have ho : e.origin ≠ s.id := (Table.find_some hfind).2.1 ▸ h
  have hpass {t : State} (ht : s.SameOwn t) : t.passAck e.origin e.channel k = t := if_neg (ht.id ▸ ho)
  obtain ⟨_, he⟩ | ⟨_, he⟩ := hact <;> rw [he]
  · have hset : s.SameOwn ((s.storeEntry { e with ackedBy := some k, changedRound := s.line.round }).write
        (.entryAcked e.origin e.channel e.level e.seq k) false) :=
      State.sameOwn_of rfl (ownEntries_replaceEntry (e := { e with ackedBy := some k, changedRound := s.line.round }) ho _)
        rfl rfl
    rw [State.setAcked, hpass (hset.handed ho)]
    exact hset.handed ho
  · have hremoved := State.removeEntry_sameOwn ho e.level e.seq .ackedAfterClear (some k)
    unfold State.removeAcked
    rw [hpass hremoved]
    simp only
    split
    · exact hremoved
    · exact hremoved.trans (State.makeStale_sameOwn _ _ _)

/-- An accepted frame of another station leaves the own-origin entries, but for an ACK of one of them (R52). -/
theorem State.applyFrame_sameOwn {s : State} {read : BitVec 54} {o : StationId} {f : Frame}
    (hf : judgeFrame read = .accepted o f) (h : o ≠ s.id) :
    s.SameOwn (s.applyFrame o f) ∨ ∃ c q, s.applyFrame o f = s.applyAck o s.id c q := by
  cases f with
  | announcement kind c r =>
    refine .inl ?_
    obtain ⟨_, _, he⟩ | ⟨_, _, he⟩ | ⟨e, _, _, he⟩ | ⟨e, hfind, _, _, he⟩ | ⟨e, hfind, _, _, he⟩ :=
      s.applyAnnouncement_cases o kind c r (announcementValid_of_judgeFrame hf) <;> rw [he]
    · exact .refl s
    · exact State.createRemote_sameOwn h c r
    · exact .refl s
    · have ho : e.origin ≠ s.id := (Table.find_some hfind).2.1 ▸ h
      exact (State.changeEntry_sameOwn (e := e.overwrite r s.line.round) ho).trans (State.makeStale_sameOwn _ _ _)
    · have ho : e.origin ≠ s.id := (Table.find_some hfind).2.1 ▸ h
      exact (State.removeEntry_sameOwn ho _ _ _ _).trans (State.makeStale_sameOwn _ _ _)
  | ack target c q =>
    by_cases ht : target = s.id
    · exact .inr ⟨c, q, by rw [← ht]; rfl⟩
    · exact .inl (State.applyAck_sameOwn ht o c q)
  | replay g w p => exact .inl (State.applyReplay_sameOwn h g w p)

theorem State.takeSlot_sameOwn (map : IdSet) (k : StationId) (s : State) : s.SameOwn (s.takeSlot map k) := by
  have hmark {orphaned : Bool} {n : Nat} {p : Peer} {queue : List QueueEntry} {feed : Feed} (hk : k ≠ s.id) :
      s.SameOwn { (s.setPeer k p).markOrphans k orphaned n with queue := queue, feed := feed } := by
    refine State.sameOwn_of rfl (ownEntries_map fun e _ => ?_) rfl rfl
    by_cases ho : e.origin = s.id
    · rw [if_pos ho, if_neg (ho ▸ Ne.symm hk)]
    · rw [if_neg ho]
      split <;> exact ho
  have hset (p : Peer) : s.SameOwn (s.setPeer k p) := State.sameOwn_of rfl rfl rfl rfl
  unfold State.takeSlot State.slotDriven State.slotReleased
  simp only
  split
  · split
    · rename_i hjoin
      exact hmark hjoin.2
    · exact hset _
  · split
    · split
      · exact hmark ‹_›
      · exact hset _
    · exact hset _

/-! ### The principle -/

/-- A property of the id, the own-origin entries, the monitors but for their timers and the annunciation unit, that holds of a
station just reset and that an adoption, a shelving and an ACK of an own entry keep, is kept by every step. -/
theorem step_keeps_own {P : State → Prop} (hsame : ∀ s t : State, s.SameOwn t → P s → P t)
    (hfresh : ∀ s : State, s.table = Table.reset → s.monitors = Vector.replicate 8 Monitor.reset →
      s.ann = Annunciation.reset → P s)
    (hchannel : ∀ (c : Channel) (s t : State), s.ChannelEvent c t → P s → P t)
    (hshelved : ∀ (c : Channel) (flag : Bool) (s : State), P s → P (s.setShelved c flag))
    (hack : ∀ (k : StationId) (c : Channel) (q : Seq) (s : State), P s → P (s.applyAck k s.id c q))
    {s t : State} (h : P s) (hstep : step s = .next t) : P t := by
  refine step_keeps_tables (P := P) (fun s t ht => hsame s t ht.sameOwn) hfresh hchannel hshelved
    (fun o s ho h => hsame s _ (State.purge_sameOwn ho) h) (fun k o c q s h => ?_) (fun read o f s hf ho h => ?_)
    (fun map k s h => hsame s _ (s.takeSlot_sameOwn map k) h) h hstep
  · by_cases ho : o = s.id
    · rw [ho]; exact hack k c q s h
    · exact hsame s _ (State.applyAck_sameOwn ho k c q) h
  · obtain he | ⟨c, q, he⟩ := State.applyFrame_sameOwn hf ho
    · exact hsame s _ he h
    · rw [he]; exact hack o c q s h

end Sys2Proof.Machine
end

section
/-! PROOFS. The own contribution follows the own-origin entries, and the pins follow it without ANN_LINK (R164, R165): O7. -/

namespace Sys2Proof.Machine

theorem State.annSound_iff (s : State) :
    s.annSound = true ↔ s.ann.own = ownContribution s.id s.table.entries ∧ (s.ann.link = true ∨ s.ann.code = s.ann.own) := by
  simp only [State.annSound, Bool.and_eq_true, Bool.or_eq_true, decide_eq_true_eq]

theorem State.SameOwn.annSound {s t : State} (ht : s.SameOwn t) (h : s.annSound = true) : t.annSound = true := by
  obtain ⟨hown, hpins⟩ := s.annSound_iff.mp h
  refine t.annSound_iff.mpr ⟨?_, ?_⟩
  · rw [ht.own, hown, ht.id, ownContribution_eq, ownContribution_eq, ht.entries]
  · rcases ht.pins with he | he
    · rw [he]; exact hpins
    · exact he

/-- A contribution just computed is current, and the pins follow it where ANN_LINK is released (R164, R165). -/
theorem State.recompute_annSound (s : State) : s.recompute.annSound = true := by
  refine (State.annSound_iff _).mpr ⟨rfl, ?_⟩
  cases hl : s.ann.link <;> simp [hl]

/-- A change of an own-origin entry that the table has handed on leaves the contribution current (R50). -/
theorem State.handed_annSound {s : State} {o : StationId} (h : o = s.id) : (s.handToAnnunciation o).annSound = true := by
  rw [State.handToAnnunciation, if_pos h]
  exact s.recompute_annSound

theorem State.adoptEntry_annSound {s : State} (h : s.annSound = true) (c : Channel) (r : Record) :
    (s.adoptEntry c r).annSound = true := by
  obtain ⟨_, _, he⟩ | ⟨_, _, he⟩ | ⟨e, hfind, _, _, he⟩ | ⟨e, hfind, _, he⟩ := s.adoptEntry_cases c r <;> rw [he]
  · exact State.handed_annSound rfl
  · exact h
  · exact (State.makeStale_sameOwn _ _ _).annSound (State.handed_annSound (Table.find_some hfind).2.1)
  · exact (State.makeStale_sameOwn _ _ _).annSound (State.handed_annSound (Table.find_some hfind).2.1)

theorem State.ChannelEvent.annSound {c : Channel} {s t : State} (ht : s.ChannelEvent c t) (h : s.annSound = true) :
    t.annSound = true := by
  cases ht with
  | same => exact h
  | monitor => exact h
  | adopts m y cause => exact State.adoptEntry_annSound (s := s.setMonitor c (m.adopting y cause)) h c _

theorem State.setShelved_annSound {s : State} (h : s.annSound = true) (c : Channel) (flag : Bool) :
    (s.setShelved c flag).annSound = true := by
  obtain ⟨_, he⟩ | ⟨_, _, he⟩ | ⟨e, _, hfind, he⟩ := s.setShelved_cases c flag <;> rw [he]
  · exact h
  · exact h
  · exact (State.makeStale_sameOwn s.id c _).annSound (State.handed_annSound (Table.find_some hfind).2.1)

theorem State.passAck_annSound {s : State} (h : s.annSound = true) (o : StationId) (c : Channel) (k : StationId) :
    (s.passAck o c k).annSound = true := by
  unfold State.passAck
  split <;> exact h

theorem State.applyAck_own_annSound {s : State} (h : s.annSound = true) (k : StationId) (c : Channel) (q : Seq) :
    (s.applyAck k s.id c q).annSound = true := by
  obtain ⟨_, he⟩ | ⟨e, hfind, _, _, ⟨_, he⟩ | ⟨_, he⟩⟩ := s.applyAck_cases k s.id c q <;> rw [he]
  · exact h
  · refine State.passAck_annSound ?_ _ _ _
    exact State.handed_annSound (Table.find_some hfind).2.1
  · have hremoved : (s.removeEntry e e.level e.seq .ackedAfterClear (some k)).annSound = true :=
      State.handed_annSound (Table.find_some hfind).2.1
    have hpassed := State.passAck_annSound hremoved e.origin e.channel k
    unfold State.removeAcked
    simp only
    split
    · exact hpassed
    · exact (State.makeStale_sameOwn _ _ _).annSound hpassed

/-- Settles O7: a change of an own-origin entry is handed on and computed afresh, and every other change leaves the own-origin
entries alone. -/
theorem ownContributionStaysCurrent : Obligations.OwnContributionStaysCurrent := by
  unfold Obligations.OwnContributionStaysCurrent
  intro s t hs hstep
  refine step_keeps_own (P := fun s => s.annSound = true) (fun s t ht h => ht.annSound h) (fun s htable _ hann => ?_)
    (fun c s t ht h => ht.annSound h) (fun c flag s h => State.setShelved_annSound h c flag)
    (fun k c q s h => State.applyAck_own_annSound h k c q) hs hstep
  rw [State.annSound_iff, htable, hann]
  exact ⟨rfl, .inr rfl⟩

end Sys2Proof.Machine
end

section
/-! PROOFS. Own-origin entries, announcement records and channel levels agree (R23, R24, R27, R28): O8. -/

namespace Sys2Proof.Machine

/-! ### Entries of a key -/

theorem Entry.hasKey_eq {e : Entry} {o : StationId} {c : Channel} (h : e.hasKey o c = true) : e.origin = o ∧ e.channel = c := by
  rwa [Entry.hasKey_eq_decide, decide_eq_true_eq] at h

/-- A replacement leaves the entries of other keys. -/
theorem mem_replaceEntry_of_key {e x : Entry} {o : StationId} {c : Channel} {es : List Entry} (hx : x.hasKey o c = true)
    (h : ¬(o = e.origin ∧ c = e.channel)) : x ∈ replaceEntry e es ↔ x ∈ es := by
  have hkey := Entry.hasKey_eq hx
  have hne : ¬x.hasKey e.origin e.channel = true := fun he => by
    have := Entry.hasKey_eq he
    exact h ⟨hkey.1.symm.trans this.1, hkey.2.symm.trans this.2⟩
  refine ⟨fun hm => ?_, fun hm => List.mem_map.mpr ⟨x, hm, if_neg hne⟩⟩
  rcases mem_replaceEntry hm with rfl | ⟨hm, _⟩
  · exact absurd x.hasKey_self hne
  · exact hm

/-- The only entry of its key after a replacement is the one put there. -/
theorem eq_of_mem_replaceEntry {e x : Entry} {es : List Entry} (hm : x ∈ replaceEntry e es)
    (hx : x.hasKey e.origin e.channel = true) : x = e := by
  rcases mem_replaceEntry hm with h | ⟨_, h⟩
  · exact h
  · rw [hx] at h; cases h

theorem self_mem_replaceEntry {e f : Entry} {es : List Entry} (hf : f ∈ es) (hkey : f.hasKey e.origin e.channel = true) :
    e ∈ replaceEntry e es := List.mem_map.mpr ⟨f, hf, if_pos hkey⟩

theorem mem_dropEntry_of_key {x : Entry} {o o' : StationId} {c c' : Channel} {es : List Entry} (hx : x.hasKey o' c' = true)
    (h : ¬(o' = o ∧ c' = c)) : x ∈ dropEntry o c es ↔ x ∈ es := by
  have hkey := Entry.hasKey_eq hx
  rw [mem_dropEntry, and_iff_left_iff_imp]
  intro _
  rw [Entry.hasKey_eq_decide, decide_eq_false_iff_not, hkey.1, hkey.2]
  exact h

theorem mem_ownEntries_of_key {x : Entry} {id : StationId} {c : Channel} {es : List Entry} (hx : x.hasKey id c = true) :
    x ∈ ownEntries id es ↔ x ∈ es := by
  simp [ownEntries, (Entry.hasKey_eq hx).1]

/-! ### A monitor with its entry -/

theorem Entry.agreesWith_iff (e : Entry) (r : Record) :
    e.agreesWith r = true ↔ e.level = r.level ∧ e.seq = r.seq ∧ e.active = r.active ∧ e.ackedBy = r.ackedBy ∧
      e.shelved = r.shelved ∧ e.value = r.value := by
  simp only [Entry.agreesWith, Bool.and_eq_true, decide_eq_true_eq, and_assoc]

/-- A monitor agrees with the own-origin entry of its channel: the record is active exactly outside NORMAL, then with the level,
and an entry holds it; and every entry of the channel holds the record (R27, R28). -/
def Monitor.Matches (m : Monitor) (id : StationId) (c : Channel) (es : List Entry) : Prop :=
  m.record.active = decide (m.level ≠ .normal) ∧ (m.record.active = true → m.record.level = m.level) ∧
    (m.record.active = true → ∃ e ∈ es, e.hasKey id c = true) ∧
    ∀ e ∈ es, e.hasKey id c = true → e.agreesWith m.record = true

theorem State.monitorsSound_iff (s : State) :
    s.monitorsSound = true ↔
      ∀ c, (s.monitor c).Matches s.id c s.table.entries ∧ (s.monitor c).sound = true := by
  have hown (c : Channel) : s.ownEntrySound c = true ↔ (s.monitor c).Matches s.id c s.table.entries := by
    simp only [State.ownEntrySound, Monitor.Matches, Bool.and_eq_true, Bool.or_eq_true, decide_eq_true_eq, Bool.not_eq_true',
      List.all_eq_true, and_assoc, ← Bool.not_eq_true, ← imp_iff_not_or, Table.find, List.find?_isSome]
  simp only [State.monitorsSound, List.all_eq_true, Bool.and_eq_true, hown]
  exact ⟨fun h c => h c (mem_channelOrder c), fun h c _ => h c⟩

/-- Agreement reads the level, the record and the entries of the channel alone. -/
theorem Monitor.Matches.congr {m m' : Monitor} {id : StationId} {c : Channel} {es fs : List Entry} (h : m.Matches id c es)
    (hlevel : m'.level = m.level) (hrecord : m'.record = m.record)
    (hes : ∀ e : Entry, e.hasKey id c = true → (e ∈ fs ↔ e ∈ es)) : m'.Matches id c fs := by
  obtain ⟨hactive, hlevels, hheld, hagree⟩ := h
  rw [Monitor.Matches, hlevel, hrecord]
  refine ⟨hactive, hlevels, fun ha => ?_, fun e he hk => hagree e ((hes e hk).mp he) hk⟩
  obtain ⟨e, he, hk⟩ := hheld ha
  exact ⟨e, (hes e hk).mpr he, hk⟩

theorem State.SameOwn.monitorsSound {s t : State} (ht : s.SameOwn t) (h : s.monitorsSound = true) :
    t.monitorsSound = true := by
  rw [State.monitorsSound_iff] at h ⊢
  intro c
  obtain ⟨hmatch, hsound⟩ := h c
  refine ⟨?_, by rw [ht.monitors c]; exact hsound⟩
  rw [ht.id]
  refine hmatch.congr (by rw [ht.monitors c]) (by rw [ht.monitors c]) fun e hk => ?_
  rw [← mem_ownEntries_of_key hk, ht.entries, mem_ownEntries_of_key hk]

/-- What is done to one channel, its monitor and the entries of its key: the other channels agree as before. -/
theorem State.monitorsSound_of_channel {s t : State} (h : s.monitorsSound = true) (c : Channel) (hid : t.id = s.id)
    (hothers : ∀ d, d ≠ c → t.monitor d = s.monitor d)
    (hentries : ∀ d, d ≠ c → ∀ e : Entry, e.hasKey s.id d = true → (e ∈ t.table.entries ↔ e ∈ s.table.entries))
    (hmatch : (t.monitor c).Matches s.id c t.table.entries) (hsound : (t.monitor c).sound = true) :
    t.monitorsSound = true := by
  rw [State.monitorsSound_iff] at h ⊢
  intro d
  rw [hid]
  by_cases hd : d = c
  · subst hd
    exact ⟨hmatch, hsound⟩
  · obtain ⟨hm, hs⟩ := h d
    rw [hothers d hd]
    exact ⟨hm.congr rfl rfl (hentries d hd), hs⟩

/-! ### Adoptions -/

/-- After an adoption the entries of the channel hold the record, one is held where it is active, and those of other channels
stay (R51). -/
theorem State.adoptEntry_entries (c : Channel) (r : Record) (s : State) :
    (∀ e ∈ (s.adoptEntry c r).table.entries, e.hasKey s.id c = true → e.agreesWith r = true) ∧
      (r.active = true → ∃ e ∈ (s.adoptEntry c r).table.entries, e.hasKey s.id c = true) ∧
      ∀ d, d ≠ c → ∀ e : Entry, e.hasKey s.id d = true → (e ∈ (s.adoptEntry c r).table.entries ↔ e ∈ s.table.entries) := by
  have hother {d : Channel} (hd : d ≠ c) : ¬(s.id = s.id ∧ d = c) := fun h => hd h.2
  obtain ⟨hnone, _, he⟩ | ⟨hnone, hinactive, he⟩ | ⟨e, hfind, hinactive, _, he⟩ | ⟨e, hfind, _, he⟩ :=
    s.adoptEntry_cases c r <;> rw [he]
  · rw [State.addEntry_table]
    refine ⟨fun x hx hk => ?_, fun _ => ⟨_, mem_insertEntry.mpr (.inl rfl), Entry.hasKey_self _⟩, fun d hd x hx => ?_⟩
    · rcases mem_insertEntry.mp hx with rfl | hx
      · exact (Entry.agreesWith_iff _ _).mpr ⟨rfl, rfl, rfl, rfl, rfl, rfl⟩
      · rw [Table.find_none.mp hnone x hx] at hk; cases hk
    · refine ⟨fun hm => (mem_insertEntry.mp hm).resolve_left ?_, fun hm => mem_insertEntry.mpr (.inr hm)⟩
      rintro rfl
      exact hd (Entry.hasKey_eq hx).2.symm
  · refine ⟨fun x hx hk => ?_, fun ha => ?_, fun _ _ _ _ => Iff.rfl⟩
    · rw [Table.find_none.mp hnone x hx] at hk; cases hk
    · rw [hinactive] at ha; cases ha
  · obtain ⟨_, ho, hc⟩ := Table.find_some hfind
    rw [State.makeStale_table, State.clearEntry, State.removeEntry_table, ho, hc]
    refine ⟨fun x hx hk => ?_, fun ha => ?_, fun d hd x hx => mem_dropEntry_of_key hx (hother hd)⟩
    · rw [(mem_dropEntry.mp hx).2] at hk; cases hk
    · rw [hinactive] at ha; cases ha
  · obtain ⟨hmem, ho, hc⟩ := Table.find_some hfind
    have hkey : e.hasKey (e.overwrite r s.line.round).origin (e.overwrite r s.line.round).channel = true := e.hasKey_self
    rw [State.makeStale_table, State.changeEntry_table]
    refine ⟨fun x hx hk => ?_, fun _ => ⟨_, self_mem_replaceEntry hmem hkey, ?_⟩, fun d hd x hx =>
      mem_replaceEntry_of_key hx ?_⟩
    · rw [← ho, ← hc] at hk
      rw [eq_of_mem_replaceEntry hx hk]
      exact (Entry.agreesWith_iff _ _).mpr ⟨rfl, rfl, rfl, rfl, rfl, rfl⟩
    · rw [← ho, ← hc]; exact hkey
    · exact fun h => hd (h.2.trans hc)

theorem State.adoptEntry_monitors (c : Channel) (r : Record) (s : State) : (s.adoptEntry c r).monitors = s.monitors := by
  obtain ⟨_, _, he⟩ | ⟨_, _, he⟩ | ⟨e, _, _, _, he⟩ | ⟨e, _, _, he⟩ := s.adoptEntry_cases c r <;>
    simp [he, State.clearEntry]

theorem State.ChannelEvent.monitorsSound {c : Channel} {s t : State} (ht : s.ChannelEvent c t)
    (h : s.monitorsSound = true) : t.monitorsSound = true := by
  obtain ⟨hmatch, hsound⟩ := s.monitorsSound_iff.mp h c
  cases ht with
  | same => exact h
  | monitor m hlevel hrecord hkeeps =>
    refine State.monitorsSound_of_channel h c rfl (fun d hd => State.monitor_setMonitor_ne hd m s) (fun _ _ _ _ => Iff.rfl)
      ?_ ?_
    · rw [State.monitor_setMonitor_self]
      exact hmatch.congr hlevel hrecord fun _ _ => Iff.rfl
    · rw [State.monitor_setMonitor_self]
      exact hkeeps hsound
  | adopts m y cause hlevel hrecord hy hcause =>
    have hmonitor (d : Channel) : (s.adoptFrom m c y cause).monitor d = (s.setMonitor c (m.adopting y cause)).monitor d := by
      show ((s.setMonitor c (m.adopting y cause)).adoptEntry c (m.adopting y cause).record).monitor d = _
      rw [State.monitor, State.adoptEntry_monitors]
      rfl
    obtain ⟨hagree, hheld, hothers⟩ :=
      (s.setMonitor c (m.adopting y cause)).adoptEntry_entries c (m.adopting y cause).record
    refine State.monitorsSound_of_channel h c (State.adoptEntry_reach c _ (s.setMonitor c (m.adopting y cause))).id (fun d hd => ?_) hothers ?_ ?_
    · rw [hmonitor, State.monitor_setMonitor_ne hd]
    · rw [hmonitor, State.monitor_setMonitor_self]
      refine ⟨rfl, fun ha => if_neg (of_decide_eq_true ha), hheld, hagree⟩
    · rw [hmonitor, State.monitor_setMonitor_self, Monitor.sound_iff]
      exact ⟨by simpa [Monitor.adopting] using hcause, by simp [Monitor.adopting], by simp [Monitor.adopting]⟩

/-! ### Shelving and acknowledgements -/

/-- An own-origin entry changed together with its record, both keeping level and activity. -/
theorem State.monitorsSound_of_changed {s t : State} (h : s.monitorsSound = true) {c : Channel} {e new : Entry} {r : Record}
    (hfind : s.table.find s.id c = some e) (hid : t.id = s.id) (hkey : new.origin = e.origin ∧ new.channel = e.channel)
    (hmonitor : ∀ d, t.monitor d = (s.setMonitor c { s.monitor c with record := r }).monitor d)
    (hentries : t.table.entries = replaceEntry new s.table.entries)
    (hr : r.level = (s.monitor c).record.level ∧ r.active = (s.monitor c).record.active)
    (hagree : e.agreesWith (s.monitor c).record = true → new.agreesWith r = true) : t.monitorsSound = true := by
  obtain ⟨⟨hactive, hlevels, _, hheld⟩, hsound⟩ := s.monitorsSound_iff.mp h c
  obtain ⟨hmem, ho, hc⟩ := Table.find_some hfind
  have hold : e.hasKey new.origin new.channel = true := by rw [hkey.1, hkey.2]; exact e.hasKey_self
  have hnew : new.origin = s.id ∧ new.channel = c := ⟨hkey.1.trans ho, hkey.2.trans hc⟩
  refine State.monitorsSound_of_channel h c hid (fun d hd => ?_) (fun d hd x hx => ?_) ?_ ?_
  · rw [hmonitor, State.monitor_setMonitor_ne hd]
  · rw [hentries]
    exact mem_replaceEntry_of_key hx fun h => hd (h.2.trans hnew.2)
  · rw [hmonitor, hentries, State.monitor_setMonitor_self]
    refine ⟨hr.2.trans hactive, fun ha => hr.1.trans (hlevels (hr.2.symm.trans ha)),
      fun _ => ⟨new, self_mem_replaceEntry hmem hold, ?_⟩, fun x hx hk => ?_⟩
    · rw [← hnew.1, ← hnew.2]; exact new.hasKey_self
    · rw [← hnew.1, ← hnew.2] at hk
      rw [eq_of_mem_replaceEntry hx hk]
      exact hagree (hheld e hmem (by rw [← ho, ← hc]; exact e.hasKey_self))
  · rw [hmonitor, State.monitor_setMonitor_self]
    exact hsound

/-- The record of a channel without an own-origin entry, or whose cleared one is removed, level and activity as before. -/
theorem State.monitorsSound_of_none {s t : State} (h : s.monitorsSound = true) {c : Channel} {r : Record} (hid : t.id = s.id)
    (hmonitor : ∀ d, t.monitor d = (s.setMonitor c { s.monitor c with record := r }).monitor d)
    (hentries : t.table.entries = Machine.dropEntry s.id c s.table.entries)
    (hr : r.level = (s.monitor c).record.level ∧ r.active = (s.monitor c).record.active)
    (hinactive : r.active = false) : t.monitorsSound = true := by
  obtain ⟨⟨hactive, hlevels, _, _⟩, hsound⟩ := s.monitorsSound_iff.mp h c
  refine State.monitorsSound_of_channel h c hid (fun d hd => ?_) (fun d hd x hx => ?_) ?_ ?_
  · rw [hmonitor, State.monitor_setMonitor_ne hd]
  · rw [hentries]
    exact mem_dropEntry_of_key hx fun h => hd h.2
  · rw [hmonitor, hentries, State.monitor_setMonitor_self]
    refine ⟨hr.2.trans hactive, fun ha => hr.1.trans (hlevels (hr.2.symm.trans ha)), fun ha => ?_, fun x hx hk => ?_⟩
    · rw [hinactive] at ha; cases ha
    · rw [(mem_dropEntry.mp hx).2] at hk; cases hk
  · rw [hmonitor, State.monitor_setMonitor_self]
    exact hsound

theorem State.setShelved_monitorsSound {s : State} (h : s.monitorsSound = true) (c : Channel) (flag : Bool) :
    (s.setShelved c flag).monitorsSound = true := by
  obtain ⟨_, he⟩ | ⟨_, hnone, he⟩ | ⟨e, _, hfind, he⟩ := s.setShelved_cases c flag <;> rw [he]
  · exact h
  · obtain ⟨⟨hactive, hlevels, hheld, _⟩, hsound⟩ := s.monitorsSound_iff.mp h c
    refine State.monitorsSound_of_channel h c rfl (fun d hd => State.monitor_setMonitor_ne hd _ s) (fun _ _ _ _ => Iff.rfl)
      ?_ ?_ <;> rw [State.monitor_setMonitor_self]
    · refine ⟨hactive, hlevels, hheld, fun x hx hk => ?_⟩
      rw [Table.find_none.mp hnone x hx] at hk; cases hk
    · exact hsound
  · refine State.monitorsSound_of_changed (r := ((s.monitor c).shelving flag).record)
      (new := e.shelving ((s.monitor c).shelving flag).record s.line.round) h hfind ?_ ⟨rfl, rfl⟩ (fun d => ?_) ?_ ⟨rfl, rfl⟩
      fun hagree => ?_
    · rw [State.staged, State.makeStale_id, State.changeEntry_id]; rfl
    · rw [State.monitor, State.staged, State.makeStale_monitors, State.changeEntry_monitors]; rfl
    · rw [State.staged, State.makeStale_table, State.changeEntry_table]; rfl
    · obtain ⟨hl, _, ha, hk, _, _⟩ := (e.agreesWith_iff _).mp hagree
      exact (Entry.agreesWith_iff _ _).mpr ⟨hl, rfl, ha, hk, rfl, rfl⟩

/-- An ACK that acts on an own entry reaches its record, and changes nothing else of the monitors (R33). -/
theorem State.passAck_own {s : State} {o : StationId} (h : o = s.id) (c : Channel) (k : StationId) :
    s.passAck o c k =
      s.setMonitor c { s.monitor c with record := { (s.monitor c).record with ackedBy := some k } } := if_pos h

theorem State.setAcked_own_monitorsSound {s : State} (h : s.monitorsSound = true) {e : Entry} {c : Channel}
    (hfind : s.table.find s.id c = some e) (k : StationId) : (s.setAcked e k).monitorsSound = true := by
  obtain ⟨_, ho, hc⟩ := Table.find_some hfind
  refine State.monitorsSound_of_changed (r := { (s.monitor c).record with ackedBy := some k })
    (new := { e with ackedBy := some k, changedRound := s.line.round }) h hfind ?_ ⟨rfl, rfl⟩ (fun d => ?_) ?_ ⟨rfl, rfl⟩
    fun hagree => ?_
  · simp [State.setAcked]
  · rw [State.setAcked, State.passAck_own (by simp [ho]), hc]
    simp [State.monitor]
  · rw [State.setAcked, State.passAck_own (by simp [ho])]
    simp
  · obtain ⟨hl, hq, ha, _, hs, hv⟩ := (e.agreesWith_iff _).mp hagree
    exact (Entry.agreesWith_iff _ _).mpr ⟨hl, hq, ha, rfl, hs, hv⟩

theorem State.removeAcked_own_monitorsSound {s : State} (h : s.monitorsSound = true) {e : Entry} {c : Channel}
    (hfind : s.table.find s.id c = some e) (hcleared : e.active = false) (k : StationId) :
    (s.removeAcked e k).monitorsSound = true := by
  obtain ⟨hmem, ho, hc⟩ := Table.find_some hfind
  have hpassed : ((s.removeEntry e e.level e.seq .ackedAfterClear (some k)).passAck e.origin e.channel k).monitorsSound = true := by
    obtain ⟨⟨_, _, _, hagree⟩, _⟩ := s.monitorsSound_iff.mp h c
    obtain ⟨_, _, ha, _⟩ := (e.agreesWith_iff _).mp (hagree e hmem (by rw [← ho, ← hc]; exact e.hasKey_self))
    rw [State.passAck_own (by simp [ho]), hc]
    refine State.monitorsSound_of_none (r := { (s.monitor c).record with ackedBy := some k }) (c := c) h ?_ (fun d => ?_) ?_
      ⟨rfl, rfl⟩ (ha.symm.trans hcleared)
    · simp
    · simp [State.monitor]
    · rw [State.setMonitor_table, State.removeEntry_table, ho, hc]
  unfold State.removeAcked
  simp only
  split
  · exact hpassed
  · exact (State.makeStale_sameOwn _ _ _).monitorsSound hpassed

/-- Settles O8: an adoption, a shelving and an ACK change the record of a channel and its own-origin entry together, and nothing
else changes either. -/
theorem ownEntriesMatchTheirRecords : Obligations.OwnEntriesMatchTheirRecords := by
  unfold Obligations.OwnEntriesMatchTheirRecords
  intro s t hs hstep
  refine step_keeps_own (P := fun s => s.monitorsSound = true) (fun s t ht h => ht.monitorsSound h)
    (fun s htable hmonitors _ => ?_) (fun c s t ht h => ht.monitorsSound h)
    (fun c flag s h => State.setShelved_monitorsSound h c flag) (fun k c q s h => ?_) hs hstep
  · rw [State.monitorsSound_iff, htable]
    intro c
    have hreset : s.monitor c = Monitor.reset := by simp [State.monitor, hmonitors]
    rw [hreset]
    exact ⟨⟨rfl, nofun, nofun, nofun⟩, by decide⟩
  · obtain ⟨_, he⟩ | ⟨e, hfind, _, _, ⟨_, he⟩ | ⟨hcleared, he⟩⟩ := s.applyAck_cases k s.id c q <;> rw [he]
    · exact h
    · exact State.setAcked_own_monitorsSound h hfind k
    · exact State.removeAcked_own_monitorsSound h hfind hcleared k

end Sys2Proof.Machine
end

section
/-! PROOFS. The notice queue as a list: what makes it sound, and what the staging, the staleness and the responses to other stations
do to it, none of which disturbs the entry on the line (chapter 04). -/

namespace Sys2Proof.Machine

/-! ### Sets of ids -/

theorem hasId_idBit (k j : StationId) : hasId (idBit k) j = decide (k = j) := by
  have hj := j.isLt
  simp only [hasId, idBit, BitVec.getLsbD_shiftLeft, BitVec.getLsbD_one, hj, decide_true, Bool.true_and]
  by_cases h : k = j
  · subst h; simp
  · have : k.val ≠ j.val := fun hv => h (Fin.ext hv)
    rw [decide_eq_false h]
    by_cases hlt : j.val < k.val
    · simp [hlt]
    · have : j.val - k.val ≠ 0 := by omega
      simp [this]

theorem hasId_idMinus (a b : IdSet) (k : StationId) : hasId (idMinus a b) k = (hasId a k && !hasId b k) := by
  have hk := k.isLt
  simp [hasId, idMinus, hk]

theorem hasId_or (a b : IdSet) (k : StationId) : hasId (a ||| b) k = (hasId a k || hasId b k) := by
  simp [hasId]

theorem hasId_and (a b : IdSet) (k : StationId) : hasId (a &&& b) k = (hasId a k && hasId b k) := by
  simp [hasId]

@[simp] theorem hasId_zero (k : StationId) : hasId 0 k = false := by simp [hasId]

/-! ### Keys and slots of entries -/

/-- The key that an ACK entry acknowledges (R69). -/
def Notice.target : Notice → Option (StationId × Channel)
  | .ack o c _ _ => some (o, c)
  | .channel _ _ | .replay => none

theorem QueueEntry.acknowledges_iff (e : QueueEntry) (o : StationId) (c : Channel) :
    e.acknowledges o c = true ↔ e.notice.target = some (o, c) := by
  unfold QueueEntry.acknowledges Notice.target
  cases e.notice <;> simp

theorem QueueEntry.sameTarget_iff (a b : QueueEntry) :
    a.sameTarget b = true ↔ ∃ k, a.notice.target = some k ∧ b.notice.target = some k := by
  cases ha : a.notice with
  | ack o c q v =>
    simp only [QueueEntry.sameTarget, ha, QueueEntry.acknowledges_iff]
    exact ⟨fun h => ⟨(o, c), rfl, h⟩, fun ⟨k, hk, h⟩ => h.trans hk.symm⟩
  | channel c b => simp [QueueEntry.sameTarget, ha, Notice.target]
  | replay => simp [QueueEntry.sameTarget, ha, Notice.target]

theorem channelSlot_val (c : Channel) : (channelSlot c).val = c.val := by
  have := c.isLt
  exact Nat.mod_eq_of_lt (by omega)

theorem channelSlot_inj {c d : Channel} : channelSlot c = channelSlot d ↔ c = d := by
  rw [Fin.ext_iff, channelSlot_val, channelSlot_val, ← Fin.ext_iff]

theorem channelSlot_not_ack (c : Channel) : channelSlot c ∉ ackSlots := by decide +revert

theorem channelSlot_ne_replaySlot (c : Channel) : channelSlot c ≠ replaySlot := by decide +revert

theorem replaySlot_not_ack : replaySlot ∉ ackSlots := by decide

/-- A slot of a channel holds that channel's notice (R70). -/
theorem QueueEntry.notice_of_channelSlot {e : QueueEntry} {c : Channel} (h : e.slotSound = true) (hs : e.slot = channelSlot c) :
    ∃ b, e.notice = .channel c b := by
  unfold QueueEntry.slotSound at h
  cases hn : e.notice with
  | channel d b =>
    simp only [hn, decide_eq_true_eq, hs, channelSlot_inj] at h
    exact ⟨b, h ▸ rfl⟩
  | ack o d q v =>
    simp only [hn, hs, List.contains_iff_mem] at h
    exact absurd h (channelSlot_not_ack c)
  | replay =>
    simp only [hn, decide_eq_true_eq, hs] at h
    exact absurd h (channelSlot_ne_replaySlot c)

/-- The replay slot holds the REPLAY notice (R70). -/
theorem QueueEntry.notice_of_replaySlot {e : QueueEntry} (h : e.slotSound = true) (hs : e.slot = replaySlot) :
    e.notice = .replay := by
  unfold QueueEntry.slotSound at h
  cases hn : e.notice with
  | channel d b =>
    simp only [hn, decide_eq_true_eq, hs] at h
    exact absurd h.symm (channelSlot_ne_replaySlot d)
  | ack o d q v =>
    simp only [hn, hs, List.contains_iff_mem] at h
    exact absurd h replaySlot_not_ack
  | replay => rfl

theorem slotEntry_some {k : Fin 15} {q : List QueueEntry} {e : QueueEntry} (h : slotEntry k q = some e) :
    e ∈ q ∧ e.slot = k := by
  have hslot := List.find?_some h
  exact ⟨List.mem_of_find?_eq_some h, of_decide_eq_true hslot⟩

theorem slotEntry_none {k : Fin 15} {q : List QueueEntry} : slotEntry k q = none ↔ ∀ e ∈ q, e.slot ≠ k := by
  simp [slotEntry, List.find?_eq_none]

/-! ### A sound queue (R70, R71, R78, R84, R86) -/

/-- An entry in a slot of its class, flagged only on the line, without a receipt of this station's own. -/
def QueueEntry.Ok (id : StationId) (e : QueueEntry) : Prop :=
  e.slotSound = true ∧ e.flagsSound = true ∧ hasId e.receipts id = false

/-- One entry a slot, one ACK entry a key, every entry in order, at most one on the line. -/
structure QueueOk (id : StationId) (q : List QueueEntry) : Prop where
  slots : (q.map (·.slot)).Nodup
  targets : (q.filterMap (·.notice.target)).Nodup
  each : ∀ e ∈ q, e.Ok id
  line : q.countP (·.onLine) ≤ 1

theorem State.queueSound_iff (s : State) :
    s.queueSound = true ↔
      QueueOk s.id s.queue ∧ (s.rst = true ∨ s.station.participates = true ∨ lineEntry s.queue = none) := by
  have htargets : (s.queue.filterMap (·.notice.target)).Nodup ↔
      s.queue.Pairwise (fun a b => a.sameTarget b = false) := by
    rw [List.Nodup, List.pairwise_filterMap]
    refine iff_of_eq (congrArg (fun R => List.Pairwise R s.queue) ?_)
    funext a b
    rw [← Bool.not_eq_true, QueueEntry.sameTarget_iff]
    grind
  have hnone : (s.queue.all (fun e => !e.onLine)) = true ↔ lineEntry s.queue = none := by
    simp [lineEntry_none]
  have hok : QueueOk s.id s.queue ↔ (s.queue.map (·.slot)).Nodup ∧ (s.queue.filterMap (·.notice.target)).Nodup ∧
      (∀ e ∈ s.queue, e.Ok s.id) ∧ s.queue.countP (·.onLine) ≤ 1 :=
    ⟨fun h => ⟨h.slots, h.targets, h.each, h.line⟩, fun ⟨hs, ht, he, hl⟩ => ⟨hs, ht, he, hl⟩⟩
  rw [hok, htargets, List.countP_eq_length_filter, ← hnone]
  simp only [State.queueSound, QueueEntry.Ok, Bool.and_eq_true, Bool.or_eq_true, decide_eq_true_eq, List.all_eq_true,
    Bool.not_eq_true', and_assoc, or_assoc]

theorem QueueOk.nil (id : StationId) : QueueOk id [] := ⟨List.nodup_nil, List.nodup_nil, nofun, Nat.zero_le _⟩

theorem QueueOk.sublist {id : StationId} {q q' : List QueueEntry} (h : QueueOk id q) (hs : q'.Sublist q) : QueueOk id q' :=
  ⟨h.slots.sublist (hs.map _), h.targets.sublist (hs.filterMap _), fun e he => h.each e (hs.subset he),
    (hs.countP_le).trans h.line⟩

theorem QueueOk.eq_of_slot {id : StationId} {q : List QueueEntry} (h : QueueOk id q) {a b : QueueEntry} (ha : a ∈ q)
    (hb : b ∈ q) (hslot : a.slot = b.slot) : a = b := List.inj_on_of_nodup_map h.slots ha hb hslot

theorem QueueOk.slotEntry_of_mem {id : StationId} {q : List QueueEntry} (h : QueueOk id q) {e : QueueEntry} (he : e ∈ q) :
    slotEntry e.slot q = some e := by
  cases hf : slotEntry e.slot q with
  | none => exact absurd rfl (slotEntry_none.mp hf e he)
  | some f =>
    obtain ⟨hm, hs⟩ := slotEntry_some hf
    rw [h.eq_of_slot hm he hs]

/-- Entries changed one by one, each in its slot and with its key, none of them put on the line. -/
theorem QueueOk.map {id : StationId} {q : List QueueEntry} (h : QueueOk id q) {f : QueueEntry → QueueEntry}
    (hf : ∀ e ∈ q, e.Ok id → (f e).slot = e.slot ∧ (f e).notice.target = e.notice.target ∧ (f e).Ok id ∧
      ((f e).onLine = true → e.onLine = true)) : QueueOk id (q.map f) := by
  have hchange (e : QueueEntry) (he : e ∈ q) := hf e he (h.each e he)
  refine ⟨?_, ?_, fun x hx => ?_, ?_⟩
  · rw [List.map_map]
    exact (List.map_congr_left fun e he => (hchange e he).1) ▸ h.slots
  · rw [List.filterMap_map]
    exact (List.filterMap_congr fun e he => (hchange e he).2.1) ▸ h.targets
  · obtain ⟨e, he, rfl⟩ := List.mem_map.mp hx
    exact (hchange e he).2.2.1
  · rw [List.countP_map]
    exact (List.countP_mono_left fun e he => (hchange e he).2.2.2).trans h.line

theorem QueueOk.update {id : StationId} {q : List QueueEntry} (h : QueueOk id q) {k : Fin 15}
    {f : QueueEntry → QueueEntry}
    (hf : ∀ e ∈ q, e.slot = k → e.Ok id → (f e).slot = e.slot ∧ (f e).notice.target = e.notice.target ∧ (f e).Ok id ∧
      ((f e).onLine = true → e.onLine = true)) : QueueOk id (updateSlot k f q) := by
  refine h.map fun e he hok => ?_
  by_cases hs : e.slot = k
  · simp only [if_pos hs]
    exact hf e he hs hok
  · simp only [if_neg hs]
    exact ⟨trivial, trivial, hok, fun h => h⟩

/-- A new entry in a free slot, waiting, with a key that no ACK entry has. -/
theorem QueueOk.append {id : StationId} {q : List QueueEntry} (h : QueueOk id q) {k : Fin 15} {n : Notice}
    (hk : slotEntry k q = none) (hslot : (QueueEntry.fresh k n).slotSound = true)
    (hn : ∀ key, n.target = some key → ∀ e ∈ q, e.notice.target ≠ some key) : QueueOk id (q ++ [QueueEntry.fresh k n]) := by
  refine ⟨?_, ?_, fun e he => ?_, ?_⟩
  · rw [List.map_append, List.nodup_append]
    refine ⟨h.slots, List.nodup_singleton _, fun a ha b hb => ?_⟩
    obtain ⟨e, he, rfl⟩ := List.mem_map.mp ha
    obtain rfl := List.mem_singleton.mp hb
    exact slotEntry_none.mp hk e he
  · rw [List.filterMap_append, List.nodup_append]
    refine ⟨h.targets, ?_, fun a ha b hb => ?_⟩
    · cases ht : n.target <;> simp [QueueEntry.fresh, ht]
    · obtain ⟨e, he, hea⟩ := List.mem_filterMap.mp ha
      obtain ⟨f, hf, hfb⟩ := List.mem_filterMap.mp hb
      obtain rfl := List.mem_singleton.mp hf
      rintro rfl
      exact hn a hfb e he hea
  · rcases List.mem_append.mp he with he | he
    · exact h.each e he
    · obtain rfl := List.mem_singleton.mp he
      refine ⟨hslot, ?_, hasId_zero id⟩
      cases n <;> rfl
  · rw [List.countP_append]
    exact h.line

/-! ### The entry on the line -/

/-- The state of the entry on the line, if there is one (R71). -/
def onLineState (q : List QueueEntry) : Option EntryState := (lineEntry q).map (·.state)

theorem onLineState_none {q : List QueueEntry} : onLineState q = none ↔ lineEntry q = none := Option.map_eq_none_iff

theorem onLineState_map {q : List QueueEntry} {f : QueueEntry → QueueEntry}
    (hf : ∀ e ∈ q, (f e).onLine = e.onLine ∧ (e.onLine = true → (f e).state = e.state)) :
    onLineState (q.map f) = onLineState q := by
  induction q with
  | nil => rfl
  | cons e q ih =>
    obtain ⟨hline, hstate⟩ := hf e List.mem_cons_self
    have hrest := ih fun e he => hf e (List.mem_cons_of_mem _ he)
    unfold onLineState lineEntry at hrest ⊢
    rw [List.map_cons, List.find?_cons, List.find?_cons, hline]
    cases he : e.onLine
    · exact hrest
    · exact congrArg some (hstate he)

theorem onLineState_updateSlot {q : List QueueEntry} {k : Fin 15} {f : QueueEntry → QueueEntry}
    (hf : ∀ e ∈ q, e.slot = k → (f e).onLine = e.onLine ∧ (e.onLine = true → (f e).state = e.state)) :
    onLineState (updateSlot k f q) = onLineState q := by
  refine onLineState_map fun e he => ?_
  by_cases hs : e.slot = k
  · simp only [if_pos hs]
    exact hf e he hs
  · simp only [if_neg hs]
    exact ⟨trivial, fun _ => trivial⟩

theorem onLineState_append {q : List QueueEntry} {e : QueueEntry} (he : e.onLine = false) :
    onLineState (q ++ [e]) = onLineState q := by
  unfold onLineState lineEntry
  rw [List.find?_append]
  cases q.find? (·.onLine) with
  | none => simp [he]
  | some f => rfl

theorem onLineState_freeSlot {q : List QueueEntry} {k : Fin 15} (h : ∀ e ∈ q, e.slot = k → e.onLine = false) :
    onLineState (freeSlot k q) = onLineState q := by
  unfold onLineState lineEntry freeSlot
  rw [List.find?_filter]
  congr 1
  refine List.find?_congr fun e he => ?_
  by_cases hs : e.slot = k
  · simp [hs, h e he hs]
  · simp [hs]

/-- What happens to the queue behind the entry on the line: a sound queue stays sound, and the entry on the line, if there is one,
stays there in its state. -/
structure QueueCalm (id : StationId) (q q' : List QueueEntry) : Prop where
  ok : QueueOk id q → QueueOk id q'
  line : QueueOk id q → onLineState q' = onLineState q

theorem QueueCalm.refl (id : StationId) (q : List QueueEntry) : QueueCalm id q q := ⟨fun h => h, fun _ => rfl⟩

theorem QueueCalm.trans {id : StationId} {p q r : List QueueEntry} (hpq : QueueCalm id p q) (hqr : QueueCalm id q r) :
    QueueCalm id p r := ⟨fun h => hqr.ok (hpq.ok h), fun h => (hqr.line (hpq.ok h)).trans (hpq.line h)⟩

/-- Entries changed one by one, each in its slot, with its key and on or off the line as before. -/
theorem QueueCalm.map {id : StationId} {q : List QueueEntry} {f : QueueEntry → QueueEntry}
    (hf : ∀ e ∈ q, e.Ok id → (f e).slot = e.slot ∧ (f e).notice.target = e.notice.target ∧ (f e).Ok id ∧
      (f e).onLine = e.onLine ∧ (e.onLine = true → (f e).state = e.state)) : QueueCalm id q (q.map f) := by
  refine ⟨fun h => h.map fun e he hok => ?_, fun h => onLineState_map fun e he => ?_⟩
  · obtain ⟨hslot, htarget, hok', hline, _⟩ := hf e he hok
    exact ⟨hslot, htarget, hok', fun hl => hline ▸ hl⟩
  · obtain ⟨_, _, _, hline⟩ := hf e he (h.each e he)
    exact hline

theorem QueueCalm.update {id : StationId} {q : List QueueEntry} {k : Fin 15} {f : QueueEntry → QueueEntry}
    (hf : ∀ e ∈ q, e.slot = k → e.Ok id → (f e).slot = e.slot ∧ (f e).notice.target = e.notice.target ∧ (f e).Ok id ∧
      (f e).onLine = e.onLine ∧ (e.onLine = true → (f e).state = e.state)) : QueueCalm id q (updateSlot k f q) := by
  refine .map fun e he hok => ?_
  by_cases hs : e.slot = k
  · simp only [if_pos hs]
    exact hf e he hs hok
  · simp only [if_neg hs]
    exact ⟨trivial, trivial, hok, trivial, fun _ => trivial⟩

/-! ### Staging (R74 to R76) -/

theorem QueueEntry.onLine_of_waiting {e : QueueEntry} (h : e.state = .waiting) : e.onLine = false := by
  simp [QueueEntry.onLine, h]

/-- A change staged on the line is flagged for restaging; off the line the entry starts over (R74). -/
theorem stageChange_calm (id : StationId) (c : Channel) (q : List QueueEntry) : QueueCalm id q (stageChange c q) := by
  unfold stageChange
  split
  · rename_i hnone
    refine ⟨fun h => h.append hnone (by simp [QueueEntry.slotSound, QueueEntry.fresh]) nofun, fun _ => onLineState_append rfl⟩
  · refine .update fun e he hslot hok => ?_
    obtain ⟨hs, hflags, hown⟩ := hok
    obtain ⟨b, hb⟩ := QueueEntry.notice_of_channelSlot hs hslot
    have hwithdraw : (!e.restage || e.onLine) = true ∧ e.withdraw = false := by
      simpa [QueueEntry.flagsSound, hb] using hflags
    cases hl : e.onLine with
    | true =>
      simp only [if_true]
      refine ⟨trivial, by rw [hb]; rfl, ⟨decide_eq_true hslot, ?_, hown⟩, hl, fun _ => trivial⟩
      simp only [QueueEntry.flagsSound, hwithdraw.2, Bool.not_false, Bool.and_true, Bool.or_eq_true]
      exact .inr hl
    | false =>
      have hrestage : e.restage = false := by simpa [hl] using hwithdraw.1
      simp only [Bool.false_eq_true, if_false]
      refine ⟨rfl, by rw [hb]; rfl, ⟨decide_eq_true hslot, ?_, hasId_zero id⟩, rfl, nofun⟩
      simp [QueueEntry.flagsSound, QueueEntry.startOver, hrestage, hwithdraw.2]

theorem stageReannounce_calm (id i : StationId) (t : Table) (c : Channel) (q : List QueueEntry) :
    QueueCalm id q (stageReannounce i t c q) := by
  unfold stageReannounce
  split
  · rename_i h
    have hnone : slotEntry (channelSlot c) q = none := Option.isNone_iff_eq_none.mp (Bool.and_eq_true_iff.mp h).2
    exact ⟨fun h => h.append hnone (by simp [QueueEntry.slotSound, QueueEntry.fresh]) nofun, fun _ => onLineState_append rfl⟩
  · exact .refl id q

theorem reannounceAll_calm (id i : StationId) (t : Table) (q : List QueueEntry) : QueueCalm id q (reannounceAll i t q) := by
  unfold reannounceAll
  induction channelOrder generalizing q with
  | nil => exact .refl id q
  | cons c cs ih => exact (stageReannounce_calm id i t c q).trans (ih _)

theorem forgetReceipts_calm (id k : StationId) (q : List QueueEntry) : QueueCalm id q (forgetReceipts k q) := by
  refine .map fun e _ hok => ⟨rfl, rfl, ⟨hok.1, hok.2.1, ?_⟩, rfl, fun _ => rfl⟩
  rw [hasId_idMinus, hok.2.2, Bool.false_and]

theorem wakeResting_calm (id : StationId) (q : List QueueEntry) : QueueCalm id q (wakeResting q) := by
  refine .map fun e _ hok => ?_
  by_cases hr : e.state = .resting
  · have hoff : e.onLine = false := by simp [QueueEntry.onLine, hr]
    simp only [if_pos hr]
    refine ⟨trivial, trivial, ⟨hok.1, ?_, hok.2.2⟩, hoff.symm, fun h => ?_⟩
    · have hflags := hok.2.1
      simp only [QueueEntry.flagsSound, hoff] at hflags ⊢
      exact hflags
    · rw [hoff] at h; cases h
  · simp only [if_neg hr]
    exact ⟨trivial, trivial, hok, trivial, fun _ => trivial⟩

/-! ### Stale ACK entries (R93, R94) -/

/-- The ACK entry of a key, and no other entry of its slot (R70, R78). -/
theorem find?_acknowledges {q : List QueueEntry} {o : StationId} {c : Channel} {e : QueueEntry}
    (h : q.find? (fun e => e.acknowledges o c) = some e) : e ∈ q ∧ e.notice.target = some (o, c) := by
  have hkey := List.find?_some h
  exact ⟨List.mem_of_find?_eq_some h, (e.acknowledges_iff o c).mp hkey⟩

theorem State.makeStale_calm (id o : StationId) (c : Channel) (s : State) : QueueCalm id s.queue (s.makeStale o c).queue := by
  obtain ⟨_, h⟩ | ⟨e, hfind, hline, h⟩ | ⟨e, hfind, hoff, h⟩ := s.makeStale_cases o c <;> rw [h]
  · exact .refl id _
  · obtain ⟨hmem, htarget⟩ := find?_acknowledges hfind
    have hone (hq : QueueOk id s.queue) (f : QueueEntry) (hf : f ∈ s.queue) (hslot : f.slot = e.slot) : f = e :=
      hq.eq_of_slot hf hmem hslot
    refine ⟨fun hq => hq.update fun f hf hslot hok => ?_, fun _ => onLineState_updateSlot fun f _ _ => ⟨rfl, fun _ => rfl⟩⟩
    obtain rfl := hone hq f hf hslot
    refine ⟨rfl, rfl, ⟨hok.1, ?_, hok.2.2⟩, fun h => h⟩
    have hflags := hok.2.1
    cases hn : f.notice with
    | ack o c q v =>
      simp only [QueueEntry.flagsSound, hn, Bool.and_eq_true, Bool.or_eq_true] at hflags ⊢
      exact ⟨.inr hline, hflags.2⟩
    | channel c b => rw [hn] at htarget; cases htarget
    | replay => rw [hn] at htarget; cases htarget
  · rw [State.writeSuperseded_queue]
    obtain ⟨hmem, _⟩ := find?_acknowledges hfind
    refine ⟨fun hq => hq.sublist List.filter_sublist, fun hq => onLineState_freeSlot fun f hf hslot => ?_⟩
    rw [hq.eq_of_slot hf hmem hslot]
    exact hoff

end Sys2Proof.Machine
end

section
/-! PROOFS. What a change of the condition table brings to the queue: staging and staleness, which leave the entry on the line and
everything of the line as it is. -/

namespace Sys2Proof.Machine

/-- The blocks of the table's reach change, and the queue behind the entry on the line. -/
structure State.Calm (s t : State) : Prop where
  reach : s.TableReach t
  queue : QueueCalm s.id s.queue t.queue

theorem State.Calm.refl (s : State) : s.Calm s := ⟨.refl s, .refl _ _⟩

theorem State.Calm.trans {s t u : State} (hst : s.Calm t) (htu : t.Calm u) : s.Calm u :=
  ⟨hst.reach.trans htu.reach, hst.queue.trans (hst.reach.id ▸ htu.queue)⟩

theorem State.calm_of_queue {s t : State} (h : s.TableReach t) (hq : t.queue = s.queue) : s.Calm t :=
  ⟨h, hq ▸ .refl _ _⟩

theorem State.setMonitor_calm (c : Channel) (m : Monitor) (s : State) : s.Calm (s.setMonitor c m) :=
  State.calm_of_queue (s.setMonitor_reach c m) rfl

theorem State.addEntry_calm (e : Entry) (s : State) : s.Calm (s.addEntry e) :=
  State.calm_of_queue (s.addEntry_reach e) (by simp)

theorem State.changeEntry_calm (e : Entry) (s : State) : s.Calm (s.changeEntry e) :=
  State.calm_of_queue (s.changeEntry_reach e) (by simp)

theorem State.removeEntry_calm (e : Entry) (l : Level) (q : Seq) (r : RemovalReason) (k : Option StationId) (s : State) :
    s.Calm (s.removeEntry e l q r k) := State.calm_of_queue (s.removeEntry_reach e l q r k) (by simp)

theorem State.makeStale_calmly (o : StationId) (c : Channel) (s : State) : s.Calm (s.makeStale o c) :=
  ⟨s.makeStale_reach o c, s.makeStale_calm s.id o c⟩

theorem State.makeStaleAll_calm (keys : List (StationId × Channel)) (s : State) : s.Calm (s.makeStaleAll keys) := by
  induction keys generalizing s with
  | nil => exact .refl s
  | cons k ks ih => exact (s.makeStale_calmly _ _).trans (ih _)

theorem State.removeAll_calm (es : List Entry) (r : RemovalReason) (s : State) : s.Calm (s.removeAll es r) := by
  induction es generalizing s with
  | nil => exact .refl s
  | cons e es ih => exact (s.removeEntry_calm _ _ _ _ _).trans (ih _)

theorem State.staged_calm (c : Channel) (s : State) : s.Calm (s.staged c) :=
  ⟨s.withQueue_reach _, stageChange_calm s.id c s.queue⟩

theorem State.adoptEntry_calm (c : Channel) (r : Record) (s : State) : s.Calm (s.adoptEntry c r) := by
  obtain ⟨_, _, h⟩ | ⟨_, _, h⟩ | ⟨e, _, _, _, h⟩ | ⟨e, _, _, h⟩ := s.adoptEntry_cases c r <;> rw [h]
  · exact s.addEntry_calm _
  · exact .refl s
  · exact (s.removeEntry_calm _ _ _ _ _).trans (State.makeStale_calmly _ _ _)
  · exact (s.changeEntry_calm _).trans (State.makeStale_calmly _ _ _)

theorem State.ChannelEvent.calm {c : Channel} {s t : State} (h : s.ChannelEvent c t) : s.Calm t := by
  cases h with
  | same => exact .refl s
  | monitor m => exact s.setMonitor_calm c m
  | adopts m y cause => exact (s.setMonitor_calm c _).trans ((State.adoptEntry_calm c _ _).trans (State.staged_calm c _))

theorem State.offerWord_calm (w : BitVec 16) (s : State) : s.Calm (s.offerWord w) := by
  obtain h | ⟨_, _, h⟩ := State.offerWord_channelEvent w s
  · rw [h]; exact .refl s
  · exact h.calm

theorem State.staleExpiry_calm (c : Channel) (s : State) : s.Calm (s.staleExpiry c) := by
  obtain h | ⟨_, _, h⟩ := State.staleExpiry_channelEvent c s
  · rw [h]; exact .refl s
  · exact h.calm

theorem State.setShelved_calm (c : Channel) (flag : Bool) (s : State) : s.Calm (s.setShelved c flag) := by
  obtain ⟨_, h⟩ | ⟨_, _, h⟩ | ⟨e, _, _, h⟩ := s.setShelved_cases c flag <;> rw [h]
  · exact .refl s
  · exact s.setMonitor_calm c _
  · exact (s.setMonitor_calm c _).trans ((State.changeEntry_calm _ _).trans
      ((State.makeStale_calmly _ _ _).trans (State.staged_calm c _)))

theorem State.purge_calm (o : StationId) (s : State) : s.Calm (s.purge o) :=
  (s.removeAll_calm _ _).trans (State.makeStaleAll_calm _ _)

theorem State.passAck_calm (o : StationId) (c : Channel) (k : StationId) (s : State) : s.Calm (s.passAck o c k) :=
  State.calm_of_queue (s.passAck_reach o c k) (by simp)

theorem State.applyAck_calm (k o : StationId) (c : Channel) (q : Seq) (s : State) : s.Calm (s.applyAck k o c q) := by
  obtain ⟨_, h⟩ | ⟨e, _, _, _, ⟨_, h⟩ | ⟨_, h⟩⟩ := s.applyAck_cases k o c q <;> rw [h]
  · exact .refl s
  · exact State.calm_of_queue (s.setAcked_reach e k) (by simp)
  · have hpassed : s.Calm ((s.removeEntry e e.level e.seq .ackedAfterClear (some k)).passAck e.origin e.channel k) :=
      (s.removeEntry_calm _ _ _ _ _).trans (State.passAck_calm _ _ _ _)
    unfold State.removeAcked
    simp only
    split
    · exact hpassed
    · exact hpassed.trans (State.makeStale_calmly _ _ _)

theorem State.createRemote_calm (o : StationId) (c : Channel) (r : Record) (s : State) : s.Calm (s.createRemote o c r) := by
  have hreach := s.createRemote_reach o c r
  obtain ⟨_, h⟩ | ⟨_, v, _, ⟨_, h⟩ | ⟨_, h⟩⟩ := s.createRemote_cases o c r <;> rw [h] at hreach ⊢
  · exact s.addEntry_calm _
  · have hevicted : s.Calm (s.evict v) := State.calm_of_queue ((s.dropEntry_reach _ _).trans (State.write_reach _ _ _)) rfl
    exact hevicted.trans ((State.addEntry_calm _ _).trans (State.makeStale_calmly _ _ _))
  · exact State.calm_of_queue hreach (by simp)

theorem State.applyReplay_calm (o : StationId) (g : BitVec 6) (w : BitVec 3) (p : BitVec 14) (s : State) :
    s.Calm (s.applyReplay o g w p) := by
  rw [State.applyReplay_eq]
  have hnoted : s.Calm (s.noteMismatch o g w p) := by
    unfold State.noteMismatch
    split
    · exact State.calm_of_queue (State.write_reach _ _ _) rfl
    · exact .refl s
  have hanswered (t : State) : t.Calm (t.answerReplay o) :=
    ⟨t.withQueue_reach _, (forgetReceipts_calm t.id o _).trans (reannounceAll_calm _ _ _ _)⟩
  exact hnoted.trans ((State.removeAll_calm _ _ _).trans ((hanswered _).trans (State.makeStaleAll_calm _ _)))

theorem State.applyFrame_calm {read : BitVec 54} {o : StationId} {f : Frame} (hf : judgeFrame read = .accepted o f)
    (s : State) : s.Calm (s.applyFrame o f) := by
  cases f with
  | announcement kind c r =>
    obtain ⟨_, _, h⟩ | ⟨_, _, h⟩ | ⟨e, _, _, h⟩ | ⟨e, _, _, _, h⟩ | ⟨e, _, _, _, h⟩ :=
      s.applyAnnouncement_cases o kind c r (announcementValid_of_judgeFrame hf) <;> rw [h]
    · exact .refl s
    · exact s.createRemote_calm o c r
    · exact .refl s
    · exact (s.changeEntry_calm _).trans (State.makeStale_calmly _ _ _)
    · exact (s.removeEntry_calm _ _ _ _ _).trans (State.makeStale_calmly _ _ _)
  | ack target c q => exact s.applyAck_calm o target c q
  | replay g w p => exact s.applyReplay_calm o g w p

/-! ### A census -/

theorem State.takeSlot_calm (id : StationId) (map : IdSet) (k : StationId) (s : State) :
    QueueCalm id s.queue (s.takeSlot map k).queue := by
  unfold State.takeSlot State.slotDriven State.slotReleased
  simp only
  split
  · split
    · exact forgetReceipts_calm id k s.queue
    · exact .refl id _
  · split
    · split <;> exact .refl id _
    · exact .refl id _

theorem State.takeCensus_calm (id : StationId) (map : IdSet) (s : State) : QueueCalm id s.queue (s.takeCensus map).queue := by
  unfold State.takeCensus
  induction stationIds.filter (fun k => decide (k.val < s.image.groupSize)) generalizing s with
  | nil => exact .refl id _
  | cons k ks ih => exact (s.takeSlot_calm id map k).trans (ih _)

end Sys2Proof.Machine
end

section
/-! PROOFS. The notice queue stays sound: one entry a slot, one ACK entry a key, one entry on the line at most (chapter 04): O9. -/

namespace Sys2Proof.Machine

/-! ### The outcome of a window (R85) -/

theorem QueueOk.eq_of_onLine {id : StationId} {q : List QueueEntry} (h : QueueOk id q) {a b : QueueEntry} (ha : a ∈ q)
    (hb : b ∈ q) (hla : a.onLine = true) (hlb : b.onLine = true) : a = b := by
  have hline := h.line
  rw [List.countP_eq_length_filter] at hline
  have hma : a ∈ q.filter (·.onLine) := List.mem_filter.mpr ⟨ha, hla⟩
  have hmb : b ∈ q.filter (·.onLine) := List.mem_filter.mpr ⟨hb, hlb⟩
  generalize q.filter (·.onLine) = onLine at hline hma hmb
  match onLine, hline with
  | [x], _ => rw [List.mem_singleton.mp hma, List.mem_singleton.mp hmb]

/-- The entry on the line retired: no other entry is on the line. -/
theorem QueueOk.freed {id : StationId} {q : List QueueEntry} (h : QueueOk id q) {e : QueueEntry}
    (he : lineEntry q = some e) : QueueOk id (freeSlot e.slot q) ∧ lineEntry (freeSlot e.slot q) = none := by
  obtain ⟨hmem, hline⟩ := lineEntry_some he
  refine ⟨h.sublist List.filter_sublist, lineEntry_none.mpr fun f hf => ?_⟩
  obtain ⟨hf, hslot⟩ := mem_freeSlot.mp hf
  by_contra hl
  exact hslot (congrArg (·.slot) (h.eq_of_onLine hf hmem (by simpa using hl) hline))

/-- The entry on the line taken off it, in its slot and with its key. -/
theorem QueueOk.takenOff {id : StationId} {q : List QueueEntry} (h : QueueOk id q) {e : QueueEntry}
    (he : lineEntry q = some e) {f : QueueEntry → QueueEntry} (hslot : (f e).slot = e.slot)
    (htarget : (f e).notice.target = e.notice.target) (hok : (f e).Ok id) (hoff : (f e).onLine = false) :
    QueueOk id (updateSlot e.slot f q) ∧ lineEntry (updateSlot e.slot f q) = none := by
  obtain ⟨hmem, hline⟩ := lineEntry_some he
  refine ⟨h.update fun g hg hs _ => ?_, lineEntry_none.mpr fun g hg => ?_⟩
  · rw [h.eq_of_slot hg hmem hs]
    exact ⟨hslot, htarget, hok, fun hl => by rw [hoff] at hl; cases hl⟩
  · rcases mem_updateSlot hg with ⟨hg, hs⟩ | ⟨g', hg', hs, rfl⟩
    · by_contra hl
      exact hs (congrArg (·.slot) (h.eq_of_onLine hg hmem (by simpa using hl) hline))
    · rw [h.eq_of_slot hg' hmem hs]
      exact hoff

/-- Counting an attempt and its receipts leaves an entry in order; this station's own receipt is left out (R86). -/
theorem QueueEntry.Ok.counted {id : StationId} {e : QueueEntry} (h : e.Ok id) (o : WindowOutcome) : (e.counted id o).Ok id := by
  obtain ⟨hslot, hflags, hown⟩ := h
  cases o with
  | lost => exact ⟨hslot, hflags, hown⟩
  | abandoned => exact ⟨hslot, hflags, hown⟩
  | sent map =>
    refine ⟨hslot, hflags, ?_⟩
    simp [QueueEntry.counted, hasId_or, hasId_idMinus, hasId_idBit, hown]

/-- An entry without flags is in order in every state. -/
theorem QueueEntry.flagsSound_of_none {e : QueueEntry} (hw : e.withdraw = false) (hr : e.restage = false) :
    e.flagsSound = true := by
  unfold QueueEntry.flagsSound
  cases e.notice <;> simp [hw, hr]

/-- The steps of R85 take the entry off the line, and leave the queue sound. -/
theorem State.settle_queue {s : State} (h : QueueOk s.id s.queue) {e : QueueEntry} (he : lineEntry s.queue = some e)
    (o : WindowOutcome) :
    QueueOk s.id (s.settle o (e.counted s.id o)).queue ∧ lineEntry (s.settle o (e.counted s.id o)).queue = none := by
  have hok : (e.counted s.id o).Ok s.id := QueueEntry.Ok.counted (h.each e (lineEntry_some he).1) o
  have hslot : (e.counted s.id o).slot = e.slot := QueueEntry.counted_slot _ _ _
  have hnotice : (e.counted s.id o).notice = e.notice := QueueEntry.counted_notice _ _ _
  generalize e.counted s.id o = counted at hok hslot hnotice
  have hfreed := h.freed he
  rw [← hslot] at hfreed
  have hkept {e' : QueueEntry} (hs : e'.slot = counted.slot) (hn : e'.notice = counted.notice)
      (hw : e'.withdraw = false) (hr : e'.restage = false) (hown : hasId e'.receipts s.id = false)
      (hoff : e'.onLine = false) : QueueOk s.id (updateSlot counted.slot (fun _ => e') s.queue) ∧
        lineEntry (updateSlot counted.slot (fun _ => e') s.queue) = none := by
    rw [hslot]
    refine h.takenOff he (hs.trans hslot) (by rw [hn, hnotice]) ⟨?_, QueueEntry.flagsSound_of_none hw hr, hown⟩ hoff
    have := hok.1
    simp only [QueueEntry.slotSound, hs, hn] at this ⊢
    exact this
  obtain ⟨_, hc⟩ | ⟨hw, _, hc⟩ | ⟨hw, hr, _, hc⟩ | ⟨_, _, _, _, hc⟩ | ⟨hw, hr, _, _, _, hc⟩ | ⟨_, _, _, _, _, hc⟩ :=
    s.settle_cases o counted <;> rw [hc]
  · rw [State.writeSuperseded_queue]; exact hfreed
  · exact hkept rfl rfl hw rfl (hasId_zero _) rfl
  · exact hkept rfl rfl hw hr hok.2.2 rfl
  · rw [State.retireComplete_frame]; exact hfreed
  · exact hkept rfl rfl hw hr hok.2.2 rfl
  · rw [State.retirePartial_frame]; exact hfreed

theorem State.takeOutcome_queue {s : State} (h : QueueOk s.id s.queue) (o : WindowOutcome) :
    QueueOk s.id (s.takeOutcome o).queue ∧ lineEntry (s.takeOutcome o).queue = none := by
  obtain ⟨hnone, hc⟩ | ⟨e, he, hc⟩ := s.takeOutcome_cases o <;> rw [hc]
  · exact ⟨h, hnone⟩
  · exact State.settle_queue h he o

/-- Only a REPLAY that retires changes the station state, and it leads to ACTIVE (R89, R160). -/
theorem State.takeOutcome_station (o : WindowOutcome) (s : State) :
    (s.takeOutcome o).station = s.station ∨ (s.takeOutcome o).station = .active := by
  have hretired (e : QueueEntry) (m : IdSet) (t : State) :
      ((t.retireComplete e).station = t.station ∨ (t.retireComplete e).station = .active) ∧
        ((t.retirePartial e m).station = t.station ∨ (t.retirePartial e m).station = .active) := by
    unfold State.retireComplete State.retirePartial
    cases e.notice with
    | replay => exact ⟨.inr rfl, .inr rfl⟩
    | channel | ack => exact ⟨.inl rfl, .inl rfl⟩
  obtain ⟨_, hc⟩ | ⟨e, _, hc⟩ := s.takeOutcome_cases o <;> rw [hc]
  · exact .inl rfl
  · obtain ⟨_, hs⟩ | ⟨_, _, hs⟩ | ⟨_, _, _, hs⟩ | ⟨_, _, _, _, hs⟩ | ⟨_, _, _, _, _, hs⟩ | ⟨_, _, _, _, _, hs⟩ :=
      s.settle_cases o (e.counted s.id o) <;> rw [hs]
    · rw [State.writeSuperseded_frame]; exact .inl rfl
    · exact .inl rfl
    · exact .inl rfl
    · exact (hretired _ 0 { s with queue := freeSlot (e.counted s.id o).slot s.queue }).1
    · exact .inl rfl
    · exact (hretired _ _ { s with queue := freeSlot (e.counted s.id o).slot s.queue }).2

theorem State.takeOutcome_participates {s : State} (h : s.station.participates = true) (o : WindowOutcome) :
    (s.takeOutcome o).station.participates = true := by
  rcases s.takeOutcome_station o with he | he <;> rw [he]
  · exact h
  · rfl

theorem State.freeze_queue {s : State} (h : QueueOk s.id s.queue) (o : WindowOutcome) :
    QueueOk s.id (s.freeze o).queue ∧ lineEntry (s.freeze o).queue = none := by
  obtain ⟨hnone, hc⟩ | ⟨e, he, hreplay, _, hc⟩ | ⟨e, _, _, hc⟩ := s.freeze_cases o <;> rw [hc]
  · exact ⟨h, hnone⟩
  · obtain ⟨hslot, hflags, hown⟩ := h.each e (lineEntry_some he).1
    refine h.takenOff he rfl rfl ⟨hslot, ?_, hown⟩ rfl
    simp only [QueueEntry.flagsSound, hreplay] at hflags ⊢
    exact hflags
  · exact State.takeOutcome_queue h _

/-! ### A good queue for the station state -/

/-- The queue is sound, and an entry is on the line in JOINING or ACTIVE only (R84). -/
def State.QueueGood (s : State) : Prop :=
  QueueOk s.id s.queue ∧ (s.station.participates = true ∨ lineEntry s.queue = none)

theorem State.queueGood_iff {s : State} (hrst : s.rst = false) : s.queueSound = true ↔ s.QueueGood := by
  simp [State.queueSound_iff, State.QueueGood, hrst]

theorem State.QueueGood.congr {s t : State} (h : s.QueueGood) (hid : t.id = s.id) (hqueue : t.queue = s.queue)
    (hstation : t.station = s.station ∨ t.station.participates = true ∨ s.station.participates = false) :
    t.QueueGood := by
  obtain ⟨hok, hline⟩ := h
  refine ⟨by rw [hid, hqueue]; exact hok, ?_⟩
  rw [hqueue]
  rcases hstation with hst | hst | hst
  · rw [hst]; exact hline
  · exact .inl hst
  · exact .inr (hline.resolve_left (by rw [hst]; exact Bool.false_ne_true))

theorem State.QueueGood.calm {s t : State} (h : s.QueueGood) (hid : t.id = s.id) (hstation : t.station = s.station)
    (hq : QueueCalm s.id s.queue t.queue) : t.QueueGood := by
  obtain ⟨hok, hline⟩ := h
  refine ⟨hid ▸ hq.ok hok, ?_⟩
  rw [hstation, ← onLineState_none, hq.line hok, onLineState_none]
  exact hline

theorem State.Calm.queueGood {s t : State} (ht : s.Calm t) (h : s.QueueGood) : t.QueueGood :=
  h.calm ht.reach.id ht.reach.station ht.queue

theorem State.takeOutcome_queueGood {s : State} (h : s.QueueGood) (o : WindowOutcome) :
    (s.takeOutcome o).QueueGood := by
  have hid : (s.takeOutcome o).id = s.id := by rw [State.takeOutcome_frame]
  obtain ⟨hok, hnone⟩ := State.takeOutcome_queue h.1 o
  exact ⟨hid ▸ hok, .inr hnone⟩

/-- Whoever leaves the group leaves no entry on the line (R97). -/
theorem State.leaveGroup_queue {s : State} (h : s.QueueGood) (o : WindowOutcome) :
    QueueOk s.id (s.leaveGroup o).queue ∧ lineEntry (s.leaveGroup o).queue = none := by
  obtain ⟨_, hc⟩ | ⟨hout, hc⟩ := s.leaveGroup_cases o <;> rw [hc]
  · exact State.freeze_queue h.1 o
  · exact ⟨h.1, h.2.resolve_left (by rw [hout]; exact Bool.false_ne_true)⟩

theorem State.enterQuiet_queue {s : State} (h : s.QueueGood) (c : QuietCause) (o : WindowOutcome) :
    QueueOk s.id (s.enterQuiet c o).queue ∧ lineEntry (s.enterQuiet c o).queue = none := State.leaveGroup_queue h o

theorem State.enterQuiet_queueGood {s : State} (h : s.QueueGood) (c : QuietCause) (o : WindowOutcome) :
    (s.enterQuiet c o).QueueGood := by
  have hid : (s.enterQuiet c o).id = s.id := by rw [State.enterQuiet_frame]
  obtain ⟨hok, hnone⟩ := State.enterQuiet_queue h c o
  exact ⟨hid ▸ hok, .inr hnone⟩

/-- An abandonment takes the entry off the line, in either order (R90). -/
theorem State.abandon_queue {s : State} (h : s.QueueGood) (first : TakenFirst) :
    QueueOk s.id (s.abandon first).queue ∧ lineEntry (s.abandon first).queue = none := by
  have hid : (s.takeOutcome .abandoned).countAbandon.id = s.id := by rw [State.countAbandon_id, State.takeOutcome_frame]
  cases first
  · have htaken : (s.takeOutcome .abandoned).countAbandon.QueueGood := State.takeOutcome_queueGood h _
    simp only [State.abandon]
    split
    · exact hid ▸ State.enterQuiet_queue htaken _ _
    · exact State.takeOutcome_queue h.1 _
  · simp only [State.abandon]
    split
    · exact State.enterQuiet_queue (s := s.countAbandon) h _ _
    · exact State.takeOutcome_queue (s := s.countAbandon) h.1 _

theorem State.abandon_queueGood {s : State} (h : s.QueueGood) (first : TakenFirst) : (s.abandon first).QueueGood := by
  have hid : (s.abandon first).id = s.id := by rw [State.abandon_frame]
  obtain ⟨hok, hnone⟩ := State.abandon_queue h first
  exact ⟨hid ▸ hok, .inr hnone⟩

/-! ### JOINING (R75, R76) -/

theorem stageReplay_ok {id : StationId} {q : List QueueEntry} (h : QueueOk id q) : QueueOk id (stageReplay q) := by
  unfold stageReplay
  split
  · exact h.append ‹_› rfl nofun
  · refine h.update fun e _ hslot hok => ⟨rfl, rfl, ⟨hok.1, ?_, hasId_zero id⟩, nofun⟩
    have hreplay := QueueEntry.notice_of_replaySlot hok.1 hslot
    have hflags := hok.2.1
    simp only [QueueEntry.flagsSound, hreplay] at hflags
    simp only [QueueEntry.flagsSound, QueueEntry.startOver, hreplay]
    exact hflags

theorem resetForReplay_calm (id : StationId) (q : List QueueEntry) : QueueCalm id q (q.map QueueEntry.resetForReplay) := by
  refine .map fun e _ hok => ?_
  unfold QueueEntry.resetForReplay
  split
  · rename_i c b hn
    have hstate : (if e.state = .resting then .waiting else e.state) = e.state ∨ e.onLine = false := by
      by_cases hr : e.state = .resting
      · exact .inr (by simp [QueueEntry.onLine, hr])
      · exact .inl (if_neg hr)
    have hline : ({ e with attempts := 0, receipts := 0, state := if e.state = .resting then .waiting else e.state } :
        QueueEntry).onLine = e.onLine := by
      by_cases hr : e.state = .resting <;> simp [QueueEntry.onLine, hr]
    refine ⟨rfl, by rw [hn], ⟨?_, ?_, hasId_zero id⟩, by rw [← hline, hn], fun hl => hstate.resolve_right (by rw [hl]; decide)⟩
    · have := hok.1
      simp only [QueueEntry.slotSound, hn] at this ⊢
      exact this
    · have := hok.2.1
      simp only [QueueEntry.flagsSound, hn] at this ⊢
      simp only [QueueEntry.onLine] at hline this ⊢
      rw [hline]
      exact this
  · exact ⟨rfl, rfl, hok, rfl, fun _ => rfl⟩
  · exact ⟨rfl, rfl, hok, rfl, fun _ => rfl⟩

theorem State.enterJoining_queue {s : State} (h : QueueOk s.id s.queue) : QueueOk s.id s.enterJoining.queue :=
  ((resetForReplay_calm _ _).trans (reannounceAll_calm _ _ _ _)).ok (stageReplay_ok h)

theorem State.countListen_queue {s : State} (h : QueueOk s.id s.queue) : QueueOk s.id s.countListen.queue := by
  unfold State.countListen
  simp only
  split
  · split
    · exact State.enterJoining_queue (s := { s with listenCount := s.listenCount + 1 }) h
    · exact h
  · exact h

/-! ### A window (R80, R81, R134) -/

theorem StationState.offers_iff {st : StationState} {e : QueueEntry} :
    st.offers e = true ↔ e.state = .waiting ∧ (st = .active ∨ (st = .joining ∧ e.notice = .replay)) := by
  cases st <;> simp [StationState.offers]

theorem StationState.participates_of_offers {st : StationState} {e : QueueEntry} (h : st.offers e = true) :
    st.participates = true := by
  obtain ⟨_, rfl | ⟨rfl, _⟩⟩ := StationState.offers_iff.mp h <;> rfl

/-- The candidate is a waiting entry of a station that may drive (R80). -/
theorem State.candidate_some {s : State} {e : QueueEntry} (h : s.candidate = some e) :
    e ∈ s.queue ∧ s.station.offers e = true := List.mem_filter.mp (lowestKey_mem h)

theorem State.refreshSeverity_cases (s : State) (e : QueueEntry) :
    s.refreshSeverity e = e ∨
      ∃ o c q v v', e.notice = .ack o c q v ∧ s.refreshSeverity e = { e with notice := .ack o c q v' } := by
  cases hn : e.notice with
  | ack o c q v =>
    unfold State.refreshSeverity
    simp only [hn]
    split
    · exact .inr ⟨o, c, q, v, _, rfl, rfl⟩
    · exact .inl rfl
  | channel c b => exact .inl (by simp [State.refreshSeverity, hn])
  | replay => exact .inl (by simp [State.refreshSeverity, hn])

theorem refreshSeverity_calm (id : StationId) (s : State) (q : List QueueEntry) : QueueCalm id q (q.map s.refreshSeverity) := by
  refine .map fun e _ hok => ?_
  obtain h | ⟨o, c, q, v, v', hn, h⟩ := s.refreshSeverity_cases e <;> rw [h]
  · exact ⟨rfl, rfl, hok, rfl, fun _ => rfl⟩
  · refine ⟨rfl, by rw [hn]; rfl, ⟨?_, ?_, hok.2.2⟩, rfl, fun _ => rfl⟩
    · have := hok.1
      simp only [QueueEntry.slotSound, hn] at this ⊢
      exact this
    · have := hok.2.1
      simp only [QueueEntry.flagsSound, hn] at this ⊢
      exact this

/-- With no entry on the line, one put there as CANDIDATE is the only one (R130). -/
theorem QueueOk.candidate {id : StationId} {q : List QueueEntry} (h : QueueOk id q) (hnone : lineEntry q = none)
    {e : QueueEntry} (he : e ∈ q) :
    QueueOk id (updateSlot e.slot (fun e => { e with state := .candidate }) q) ∧
      onLineState (updateSlot e.slot (fun e => { e with state := .candidate }) q) = some .candidate := by
  have hoff := lineEntry_none.mp hnone
  have hflags (f : QueueEntry) (hf : f ∈ q) : f.withdraw = false ∧ f.restage = false := by
    have hsound := (h.each f hf).2.1
    have hline := hoff f hf
    unfold QueueEntry.flagsSound at hsound
    cases hn : f.notice <;> simp_all
  have hone {x : QueueEntry} (hx : x ∈ updateSlot e.slot (fun e => { e with state := .candidate }) q)
      (hl : x.onLine = true) : x = { e with state := .candidate } := by
    rcases mem_updateSlot hx with ⟨hx, _⟩ | ⟨f, hf, hs, rfl⟩
    · rw [hoff x hx] at hl; cases hl
    · rw [h.eq_of_slot hf he hs]
  refine ⟨⟨?_, ?_, fun x hx => ?_, ?_⟩, ?_⟩
  · exact slots_updateSlot (k := e.slot) (f := fun e => { e with state := .candidate }) (fun _ => rfl) q ▸ h.slots
  · have htargets : (updateSlot e.slot (fun e => { e with state := .candidate }) q).filterMap (·.notice.target) =
        q.filterMap (·.notice.target) := by
      rw [Machine.updateSlot, List.filterMap_map]
      refine List.filterMap_congr fun f _ => ?_
      by_cases hs : f.slot = e.slot <;> simp [hs]
    exact htargets ▸ h.targets
  · rcases mem_updateSlot hx with ⟨hx, _⟩ | ⟨f, hf, hs, rfl⟩
    · exact h.each x hx
    · obtain ⟨hw, hr⟩ := hflags f hf
      exact ⟨(h.each f hf).1, QueueEntry.flagsSound_of_none hw hr, (h.each f hf).2.2⟩
  · rw [Machine.updateSlot, List.countP_map]
    have hcount : q.countP (fun f => decide (f.slot = e.slot)) ≤ 1 := by
      have := List.nodup_iff_count_le_one.mp h.slots e.slot
      rw [List.count, List.countP_map] at this
      exact (List.countP_congr fun f _ => by simp [Function.comp]).trans_le this
    refine (List.countP_mono_left fun f hf hl => ?_).trans hcount
    by_cases hs : f.slot = e.slot
    · exact decide_eq_true hs
    · simp only [Function.comp, if_neg hs] at hl
      rw [hoff f hf] at hl; cases hl
  · have hmem : ({ e with state := .candidate } : QueueEntry) ∈
        updateSlot e.slot (fun e => { e with state := .candidate }) q := List.mem_map.mpr ⟨e, he, if_pos rfl⟩
    cases hl : lineEntry (updateSlot e.slot (fun e => { e with state := .candidate }) q) with
    | none =>
      have := lineEntry_none.mp hl _ hmem
      simp [QueueEntry.onLine] at this
    | some x =>
      obtain ⟨hx, hxl⟩ := lineEntry_some hl
      rw [onLineState, hl, hone hx hxl]
      rfl

/-- A window starts only in a round that is followed, with a window left and no entry on the line, and takes the candidate, if there
is one, after the severities of the ACK entries are set afresh (R80, R81, R113). -/
theorem State.startWindow_cases (driven : Bool) (s : State) :
    let t : State := { s with queue := s.queue.map s.refreshSeverity }
    (¬(s.windowLeft = true ∧ s.line.position.beforeWindow = true) ∧ s.startWindow driven = s) ∨
      (s.windowLeft = true ∧ s.line.position.beforeWindow = true ∧
        ((t.candidate = none ∧ s.startWindow driven = { t with line := s.line.startWindow driven none }) ∨
          ∃ e, t.candidate = some e ∧ s.startWindow driven =
            { t with
              queue := updateSlot e.slot (fun e => { e with state := .candidate }) t.queue
              line := s.line.startWindow driven (some (t.noticeFlight e.notice)) })) := by
  intro t
  by_cases h : s.windowLeft = true ∧ s.line.position.beforeWindow = true
  · refine .inr ⟨h.1, h.2, ?_⟩
    have hcond : (s.windowLeft && s.line.position.beforeWindow) = true := Bool.and_eq_true_iff.mpr h
    unfold State.startWindow
    rw [if_pos hcond]
    cases hc : t.candidate with
    | none => exact .inl ⟨rfl, by simp only [t] at hc; simp only [hc, t]⟩
    | some e => exact .inr ⟨e, rfl, by simp only [t] at hc; simp only [hc, t]⟩
  · exact .inl ⟨h, if_neg (by simpa using h)⟩

theorem State.windowLeft_iff (s : State) :
    s.windowLeft = true ↔ s.follows = true ∧ s.line.windowsUsed < s.image.windows ∧ lineEntry s.queue = none := by
  simp [State.windowLeft, and_assoc]

theorem State.startWindow_queueGood {s : State} (h : s.QueueGood) (driven : Bool) : (s.startWindow driven).QueueGood := by
  obtain ⟨_, hc⟩ | ⟨hleft, _, ⟨_, hc⟩ | ⟨e, he, hc⟩⟩ := s.startWindow_cases driven <;> rw [hc]
  · exact h
  · exact h.calm rfl rfl (refreshSeverity_calm s.id s s.queue)
  · obtain ⟨_, _, hnone⟩ := s.windowLeft_iff.mp hleft
    obtain ⟨hmem, hoffers⟩ := State.candidate_some he
    have hcalm := refreshSeverity_calm s.id s s.queue
    have hnone' : lineEntry (s.queue.map s.refreshSeverity) = none :=
      onLineState_none.mp ((hcalm.line h.1).trans (onLineState_none.mpr hnone))
    exact ⟨((hcalm.ok h.1).candidate hnone' hmem).1, .inl (StationState.participates_of_offers hoffers)⟩

/-- A CANDIDATE that becomes SENDING is in order, and on the line as before (R134). -/
theorem winKey_ok {id : StationId} {q : List QueueEntry} (h : QueueOk id q) :
    QueueOk id (q.map (fun e => if e.state = .candidate then { e with state := .sending } else e)) := by
  refine h.map fun e _ hok => ?_
  by_cases hs : e.state = .candidate
  · have hline : e.onLine = true := by simp [QueueEntry.onLine, hs]
    simp only [if_pos hs]
    refine ⟨trivial, trivial, ⟨hok.1, ?_, hok.2.2⟩, fun _ => hline⟩
    have hflags := hok.2.1
    simp only [QueueEntry.flagsSound, hline] at hflags ⊢
    exact hflags
  · simp only [if_neg hs]
    exact ⟨trivial, trivial, hok, fun hl => hl⟩

/-! ### What every step keeps -/

theorem State.finishCensus_queueGood {s : State} (h : s.QueueGood) (slots : IdSet) (first : TakenFirst) :
    (s.finishCensus slots first).QueueGood := by
  have hpast (n : Nat) : (s.pastCensus slots n).QueueGood := h
  have htaken {t : State} (ht : t.QueueGood) (map : IdSet) : (t.takeCensus map).QueueGood :=
    ht.calm (by rw [State.takeCensus_frame]) (by rw [State.takeCensus_frame]) (t.takeCensus_calm t.id map)
  obtain ⟨_, hc⟩ | ⟨_, _, ⟨_, _, ⟨_, hc⟩ | ⟨_, hc⟩⟩ | ⟨_, hc⟩⟩ := s.finishCensus_cases slots first <;> rw [hc]
  · exact h
  · exact State.enterQuiet_queueGood (htaken (hpast _) _) _ _
  · exact htaken (State.enterQuiet_queueGood (hpast _) _ _) _
  · have hgood := htaken (hpast s.listenCount) (slots &&& slotMask s.image.groupSize)
    generalize (s.pastCensus slots s.listenCount).takeCensus (slots &&& slotMask s.image.groupSize) = t at hgood ⊢
    have hid : t.countListen.id = t.id := by rw [State.countListen_frame]
    refine ⟨hid ▸ State.countListen_queue hgood.1, ?_⟩
    unfold State.countListen
    simp only
    split
    · split
      · exact .inl rfl
      · exact hgood.2
    · exact hgood.2

theorem State.findStuck_queueGood {s : State} (h : s.QueueGood) : s.findStuck.QueueGood := by
  obtain ⟨_, hc⟩ | ⟨_, _, hc⟩ := s.findStuck_cases <;> rw [hc]
  · exact h
  · obtain ⟨hok, hnone⟩ := State.leaveGroup_queue (s := s.stuckFound) h .lost
    have hid : (s.stuckFound.leaveGroup .lost).id = s.id := by rw [State.leaveGroup_frame]; rfl
    have hleft : (((s.stuckFound.leaveGroup .lost).goneOff).write .lineStuck true).QueueGood := ⟨hid ▸ hok, .inr hnone⟩
    unfold State.enterStuck
    split
    · exact hleft
    · exact ⟨hleft.1, .inr hnone⟩

theorem State.restoreLine_queueGood {s : State} (h : s.QueueGood) : s.restoreLine.QueueGood := by
  unfold State.restoreLine
  split
  · rename_i hc
    have hout : s.station.participates = false := by rcases hc.2 with hs | hs <;> rw [hs] <;> rfl
    simp only
    split
    · exact h.congr rfl rfl (.inr (.inr hout))
    · exact h.congr rfl rfl (.inr (.inr hout))
  · exact h

theorem State.event_queueGood {c : Instr} {f : State → State} (hf : eventOf c = some f) {s : State} (h : s.QueueGood) :
    (f s).QueueGood := by
  cases c with
  | staleTimerExpiry c => cases hf; exact (s.staleExpiry_calm c).queueGood h
  | roundTimerExpiry =>
    cases hf
    unfold State.roundExpiry
    simp only
    split_ifs <;> exact h.congr rfl rfl (.inl rfl)
  | silenceTimerExpiry =>
    cases hf
    unfold State.loneStart
    split
    · exact ⟨State.enterJoining_queue h.1, .inl rfl⟩
    · exact h
  | markRecognised =>
    cases hf
    unfold State.recogniseMark
    split
    · exact h.calm rfl rfl (wakeResting_calm s.id s.queue)
    · exact h
  | markUnrecognised => cases hf; unfold State.missOwnMark; split <;> exact h
  | markTrailingEdge =>
    cases hf
    unfold State.trailingEdge
    split
    · split <;> exact h
    · exact h
  | censusEnd slots first => cases hf; exact State.finishCensus_queueGood h slots first
  | sweepStart => cases hf; unfold State.startSweep; split <;> exact h
  | sweepEnd read =>
    cases hf
    unfold State.finishSweep
    split
    · split
      · unfold State.takeSweep
        split <;> exact h
      · exact h
    · exact h
  | windowStart driven => cases hf; exact State.startWindow_queueGood h driven
  | contestLost bit =>
    cases hf
    unfold State.loseContest
    split
    · exact h
    · split
      · exact State.takeOutcome_queueGood h .lost
      · exact h
  | lineFaultAbandon bit first =>
    cases hf
    unfold State.lineFault
    split
    · exact h
    · split_ifs
      · exact h
      · exact State.abandon_queueGood h first
      · exact State.abandon_queueGood h first
      · exact h
  | keyWon =>
    cases hf
    unfold State.winKey
    split
    · exact h
    · rename_i hflight
      obtain ⟨_, hin, _⟩ := State.flightAs_some hflight
      split
      · exact ⟨winKey_ok h.1, .inl hin⟩
      · exact h
  | readBackMismatch bit first =>
    cases hf
    unfold State.readBackMismatch
    split
    · exact h
    · split
      · exact State.abandon_queueGood h first
      · exact h
  | frameSentWhole =>
    cases hf
    have hsent (f : Flight) : (s.frameSent f).QueueGood := h
    obtain ⟨_, hc⟩ | ⟨f, _, ⟨_, o, c, q, _, hc⟩ | ⟨_, hc⟩⟩ := s.sendWhole_cases <;> rw [hc]
    · exact h
    · exact (State.applyAck_calm _ o c q _).queueGood (hsent f)
    · exact hsent f
  | frameJudged read =>
    cases hf
    have hread (j : Judgement) : (s.frameRead read j).QueueGood := h
    obtain ⟨_, hc⟩ | ⟨_, ⟨_, hc⟩ | ⟨_, hc⟩ | ⟨o, f, hj, ⟨_, _, hc⟩ | ⟨_, _, hc⟩ | ⟨_, hc⟩⟩⟩ := s.judge_cases read <;> rw [hc]
    · exact h
    · exact h
    · exact h
    · exact h
    · exact State.enterQuiet_queueGood (hread .accepted) _ _
    · exact (State.applyFrame_calm hj _).queueGood (hread .accepted)
  | receiptSlot => cases hf; unfold State.driveReceipt; split <;> exact h
  | receiptFieldEnd slots =>
    cases hf
    unfold State.finishReceipts
    split_ifs
    · exact State.takeOutcome_queueGood h _
    · exact h
    · exact h
    · exact h
  | roundEnd => cases hf; unfold State.finishRound; split <;> exact h
  | lineStuck => cases hf; exact State.findStuck_queueGood h
  | lineRestored => cases hf; exact State.restoreLine_queueGood h
  | _ => exact absurd hf (Option.some_ne_none _).symm

theorem State.Served.queueGood {s t : State} (ht : s.Served t) (h : s.QueueGood) : t.QueueGood := by
  cases ht with
  | started hsetup =>
    rw [State.startUp_frame]
    exact h.congr rfl rfl (.inr (.inr (by rw [hsetup]; rfl)))
  | restarted => exact ⟨.nil _, .inr rfl⟩
  | quieted => exact State.enterQuiet_queueGood h _ _
  | resumed hquiet => exact h.congr rfl rfl (.inr (.inr (by rw [hquiet]; rfl)))
  | resumedStuck hquiet => exact h.congr rfl rfl (.inr (.inr (by rw [hquiet]; rfl)))
  | acknowledging e slot _ _ hnone hfree =>
    have hslot : slotEntry slot s.queue = none := by
      have := List.find?_some hfree
      simpa using this
    have hack : slot ∈ ackSlots := List.mem_of_find?_eq_some hfree
    refine ⟨h.1.append hslot ?_ fun key hkey f hf htarget => ?_, ?_⟩
    · simpa [QueueEntry.slotSound, QueueEntry.fresh] using hack
    · obtain rfl := Option.some.inj hkey
      have hany : s.queue.any (fun q => q.acknowledges e.origin e.channel) = true :=
        List.any_eq_true.mpr ⟨f, hf, (f.acknowledges_iff _ _).mpr htarget⟩
      rw [hnone] at hany
      cases hany
    · rw [← onLineState_none, onLineState_append rfl, onLineState_none]
      exact h.2
  | shelved c flag => exact (s.setShelved_calm c flag).queueGood h
  | purged o => exact (s.purge_calm o).queueGood h
  | _ => exact h

/-- Settles O9: the staging, the staleness and the responses leave the entry on the line; an outcome, an abandonment and the leaving
of the group take it off; only the choice of a candidate puts one on, where none was. -/
theorem queueStaysSound : Obligations.QueueStaysSound := by
  unfold Obligations.QueueStaysSound
  intro s t hs hstep
  refine step_keeps (P := fun s => s.queueSound = true) (fun s _ _ _ _ _ _ h => h) (fun s straps => ?_) (fun s h => ?_)
    (fun s t hrst h ht => ?_) (fun w s hrst h => ?_) (fun c f s hf hrst h => ?_) (fun s hrst h => ?_) hs hstep
  · exact (State.queueSound_iff _).mpr ⟨.nil _, .inr (.inr rfl)⟩
  · exact (State.queueSound_iff _).mpr ⟨(s.queueSound_iff.mp h).1, .inl rfl⟩
  · exact (State.queueGood_iff (ht.rst.trans hrst)).mpr (ht.queueGood ((State.queueGood_iff hrst).mp h))
  · have hcalm := s.offerWord_calm w
    exact (State.queueGood_iff (hcalm.reach.rst.trans hrst)).mpr (hcalm.queueGood ((State.queueGood_iff hrst).mp h))
  · have hgoes := event_goesOn hf s
    exact (State.queueGood_iff (hgoes.2.2.1.trans hrst)).mpr (State.event_queueGood hf ((State.queueGood_iff hrst).mp h))
  · rw [State.tick_eq hrst]
    exact h

end Sys2Proof.Machine
end

section
/-! PROOFS. Station state, line state, position and what is driven stay consistent (R1, R2, R102, R105, R118, R156): O10. -/

namespace Sys2Proof.Machine

/-- The station and its line agree, RST apart: the conditions of `State.lineSound` one by one. -/
structure State.LineOk (s : State) : Prop where
  silent : s.station.participates = true ∨ s.line.tx = []
  cause : s.cause = .none ↔ s.station ≠ .quiet
  position : s.line.position = .off ↔ (s.station = .setup ∨ s.line.lineState = .stuck)
  atRest : s.line.position = .off → s.line.roundTimer = none ∧ s.line.deferredMark = false ∧ s.line.censusMap = 0
  stuck : s.line.lineState = .up ∨ s.station = .stuck ∨ s.station = .quiet
  station : s.station = .stuck → s.line.lineState = .stuck
  silence : s.silenceTimer.isSome = true ↔ s.station = .listen
  count : s.station = .listen → s.listenCount < 2
  deferred : s.line.deferredMark = true → s.station.participates = true

theorem State.lineSound_iff {s : State} (hrst : s.rst = false) : s.lineSound = true ↔ s.LineOk := by
  have hparts : s.lineSound = true ↔
      (s.station.participates = true ∨ s.line.tx = []) ∧ (s.cause = .none ↔ s.station ≠ .quiet) ∧
        ((s.line.position = .off ↔ (s.station = .setup ∨ s.line.lineState = .stuck)) ∧
          (s.line.position = .off → s.line.roundTimer = none ∧ s.line.deferredMark = false ∧ s.line.censusMap = 0) ∧
          (s.line.lineState = .up ∨ s.station = .stuck ∨ s.station = .quiet) ∧
          (s.station = .stuck → s.line.lineState = .stuck)) ∧
        (s.silenceTimer.isSome = true ↔ s.station = .listen) ∧ (s.station = .listen → s.listenCount < 2) ∧
        (s.line.deferredMark = true → s.station.participates = true) := by
    simp only [State.lineSound, State.silentSound, State.causeSound, State.positionSound, State.listenSound, hrst,
      Bool.false_or, Bool.and_eq_true, Bool.or_eq_true, decide_eq_true_eq, Bool.not_eq_true', Option.isNone_iff_eq_none,
      and_assoc, or_assoc, ne_eq, imp_iff_not_or, Bool.not_eq_true]
  rw [hparts]
  constructor
  · rintro ⟨hsilent, hcause, ⟨hposition, hrest, hstuck, hstation⟩, hsilence, hcount, hdeferred⟩
    exact ⟨hsilent, hcause, hposition, hrest, hstuck, hstation, hsilence, hcount, hdeferred⟩
  · rintro ⟨hsilent, hcause, hposition, hrest, hstuck, hstation, hsilence, hcount, hdeferred⟩
    exact ⟨hsilent, hcause, ⟨hposition, hrest, hstuck, hstation⟩, hsilence, hcount, hdeferred⟩

/-! ### Changes that keep it -/

/-- Nothing of it changes. -/
theorem State.LineOk.congr {s t : State} (h : s.LineOk) (hstation : t.station = s.station) (hcause : t.cause = s.cause)
    (hsilence : t.silenceTimer = s.silenceTimer) (hcount : t.listenCount = s.listenCount) (hline : t.line = s.line) :
    t.LineOk := by
  refine ⟨?_, ?_, ?_, ?_, ?_, ?_, ?_, ?_, ?_⟩
  · rw [hstation, hline]; exact h.silent
  · rw [hcause, hstation]; exact h.cause
  · rw [hline, hstation]; exact h.position
  · rw [hline]; exact h.atRest
  · rw [hline, hstation]; exact h.stuck
  · rw [hstation, hline]; exact h.station
  · rw [hsilence, hstation]; exact h.silence
  · rw [hstation, hcount]; exact h.count
  · rw [hline, hstation]; exact h.deferred

theorem State.TableReach.lineOk {s t : State} (ht : s.TableReach t) (h : s.LineOk) : t.LineOk :=
  h.congr ht.station ht.cause ht.silenceTimer ht.listenCount ht.line

/-- The engine goes on from a position that is not OFF to one that is not OFF, on a line as it was; a station outside JOINING and
ACTIVE drives nothing and defers no mark. -/
theorem State.LineOk.moved {s t : State} (h : s.LineOk) (hstation : t.station = s.station) (hcause : t.cause = s.cause)
    (hsilence : t.silenceTimer.isSome = s.silenceTimer.isSome) (hcount : t.listenCount = s.listenCount)
    (hlineState : t.line.lineState = s.line.lineState) (hfrom : s.line.position ≠ .off) (hto : t.line.position ≠ .off)
    (htx : s.station.participates = true ∨ t.line.tx = [])
    (hdeferred : t.line.deferredMark = true → s.station.participates = true ∨ s.line.deferredMark = true) : t.LineOk := by
  refine ⟨by rw [hstation]; exact htx, by rw [hcause, hstation]; exact h.cause, ?_, fun hoff => absurd hoff hto,
    by rw [hlineState, hstation]; exact h.stuck, by rw [hlineState, hstation]; exact h.station,
    by rw [hsilence, hstation]; exact h.silence, by rw [hcount, hstation]; exact h.count,
    fun hd => by rw [hstation]; exact (hdeferred hd).elim (fun hp => hp) h.deferred⟩
  rw [hlineState, hstation]
  exact ⟨fun hoff => absurd hoff hto, fun hset => absurd (h.position.mpr hset) hfrom⟩

theorem Position.ne_off_of_inRound {p : Position} (h : p.inRound = true) : p ≠ .off := by
  rintro rfl; cases h

theorem Position.ne_off_of_lineIdle {p : Position} (h : p.lineIdle = true) : p ≠ .off := by
  rintro rfl; cases h

theorem State.follows_iff (s : State) : s.follows = true ↔ s.station.observes = true ∧ s.line.position.inRound = true := by
  simp [State.follows]

/-- A station that may drive is neither in SETUP nor STUCK nor QUIET nor in LISTEN (R1). -/
theorem StationState.participates_iff {st : StationState} : st.participates = true ↔ st = .joining ∨ st = .active := by
  cases st <;> simp [StationState.participates]

theorem StationState.observes_iff {st : StationState} :
    st.observes = true ↔ st = .listen ∨ st = .joining ∨ st = .active ∨ st = .quiet := by
  cases st <;> simp [StationState.observes]

/-- A station of the group stays in it with its line (R160). -/
theorem State.takeOutcome_lineOk {s : State} (h : s.LineOk) (hin : s.station.participates = true) (o : WindowOutcome) :
    (s.takeOutcome o).LineOk := by
  have hframe := s.takeOutcome_frame o
  rcases s.takeOutcome_station o with hst | hst
  · exact h.congr hst (by rw [hframe]) (by rw [hframe]) (by rw [hframe]) (by rw [hframe])
  · obtain ⟨_, hcause, hposition, hrest, hstuck, _, hsilence, _, _⟩ := h
    have hnot : s.station ≠ .setup ∧ s.station ≠ .stuck ∧ s.station ≠ .quiet ∧ s.station ≠ .listen := by
      rcases StationState.participates_iff.mp hin with hs | hs <;> rw [hs] <;> decide
    obtain ⟨hsetup, hnotstuck, hquiet, hlisten⟩ := hnot
    have hup := hstuck.resolve_right (not_or.mpr ⟨hnotstuck, hquiet⟩)
    have hline : (s.takeOutcome o).line = s.line := by rw [hframe]
    have hcause' : (s.takeOutcome o).cause = s.cause := by rw [hframe]
    have hsilence' : (s.takeOutcome o).silenceTimer = s.silenceTimer := by rw [hframe]
    constructor
    · exact .inl (by rw [hst]; rfl)
    · rw [hcause', hst]
      exact ⟨fun _ => by decide, fun _ => hcause.mpr hquiet⟩
    · rw [hline, hst]
      exact ⟨fun hoff => (hposition.mp hoff).elim (absurd · hsetup) .inr, fun hs => hposition.mpr (hs.elim nofun .inr)⟩
    · rw [hline]; exact hrest
    · exact .inl (by rw [hline]; exact hup)
    · rw [hst]; exact nofun
    · rw [hsilence', hst]
      exact ⟨fun hs => absurd (hsilence.mp hs) hlisten, nofun⟩
    · rw [hst]; exact nofun
    · rw [hst]; exact fun _ => rfl

/-- QUIET entered from any state but SETUP: nothing is driven, no mark is deferred, the timer is stopped (R13). -/
theorem State.enterQuiet_lineOk {s : State} (hsilent : s.station.participates = true ∨ s.line.tx = [])
    (hposition : s.line.position = .off ↔ s.line.lineState = .stuck)
    (hrest : s.line.position = .off → s.line.roundTimer = none ∧ s.line.deferredMark = false ∧ s.line.censusMap = 0)
    (hdeferred : s.line.deferredMark = true → s.station.participates = true) {c : QuietCause} (hc : c ≠ .none)
    (o : WindowOutcome) : (s.enterQuiet c o).LineOk := by
  have hline : (s.enterQuiet c o).line = (s.leaveGroup o).line := rfl
  have hleft : (s.leaveGroup o).line.tx = [] ∧ (s.leaveGroup o).line.deferredMark = false ∧
      (s.leaveGroup o).line.position = s.line.position ∧ (s.leaveGroup o).line.lineState = s.line.lineState ∧
      (s.leaveGroup o).line.roundTimer = s.line.roundTimer ∧ (s.leaveGroup o).line.censusMap = s.line.censusMap := by
    obtain ⟨hin, hg⟩ | ⟨hout, hg⟩ := s.leaveGroup_cases o <;> rw [hg]
    · rw [State.freeze_frame]
      exact ⟨rfl, rfl, rfl, rfl, rfl, rfl⟩
    · refine ⟨hsilent.resolve_left (by rw [hout]; decide), ?_, rfl, rfl, rfl, rfl⟩
      cases hd : s.line.deferredMark with
      | false => rfl
      | true => rw [hdeferred hd] at hout; cases hout
  obtain ⟨htx, hmark, hpos, hstate, htimer, hmap⟩ := hleft
  refine ⟨.inr (hline ▸ htx), ?_, ?_, ?_, .inr (.inr rfl), nofun, ?_, nofun, fun hd => ?_⟩
  · exact ⟨fun h => absurd h hc, fun h => absurd rfl h⟩
  · rw [hline, hpos, hstate, hposition]
    exact ⟨.inr, fun h => h.resolve_left nofun⟩
  · rw [hline, hpos, htimer, hmark, hmap]
    exact fun hoff => ⟨(hrest hoff).1, rfl, (hrest hoff).2.2⟩
  · exact ⟨nofun, nofun⟩
  · rw [hline, hmark] at hd; cases hd

theorem State.LineOk.enterQuiet {s : State} (h : s.LineOk) (hsetup : s.station ≠ .setup) {c : QuietCause} (hc : c ≠ .none)
    (o : WindowOutcome) : (s.enterQuiet c o).LineOk := by
  refine State.enterQuiet_lineOk h.silent ?_ h.atRest h.deferred hc o
  rw [h.position]
  exact ⟨fun hs => hs.resolve_left hsetup, .inr⟩

theorem StationState.ne_setup_of_participates {st : StationState} (h : st.participates = true) : st ≠ .setup := by
  rintro rfl; cases h

theorem State.countAbandon_lineOk {s : State} (h : s.LineOk) : s.countAbandon.LineOk :=
  ⟨h.silent, h.cause, h.position, h.atRest, h.stuck, h.station, h.silence, h.count, h.deferred⟩

/-- An abandonment leaves the engine where it is, and may end in QUIET (R90, R129). -/
theorem State.abandon_lineOk {s : State} (h : s.LineOk) (hin : s.station.participates = true) (first : TakenFirst) :
    (s.abandon first).LineOk := by
  cases first
  · have htaken := State.countAbandon_lineOk (State.takeOutcome_lineOk h hin .abandoned)
    have hin' : (s.takeOutcome .abandoned).countAbandon.station.participates = true :=
      State.takeOutcome_participates hin .abandoned
    simp only [State.abandon]
    split
    · exact htaken.enterQuiet (StationState.ne_setup_of_participates hin') (by decide) _
    · exact htaken
  · have hcounted := State.countAbandon_lineOk h
    simp only [State.abandon]
    split
    · exact hcounted.enterQuiet (StationState.ne_setup_of_participates hin) (by decide) _
    · exact State.takeOutcome_lineOk hcounted hin _

theorem State.leaveGroup_position (o : WindowOutcome) (s : State) : (s.leaveGroup o).line.position = s.line.position := by
  obtain ⟨_, hg⟩ | ⟨_, hg⟩ := s.leaveGroup_cases o <;> rw [hg]
  rw [State.freeze_frame]
  rfl

theorem State.abandon_position (first : TakenFirst) (s : State) : (s.abandon first).line.position = s.line.position := by
  have howner : ((s.takeOutcome .abandoned).countAbandon).line.position = s.line.position := by
    rw [State.takeOutcome_frame]; rfl
  cases first
  · simp only [State.abandon]
    split
    · exact (State.leaveGroup_position _ _).trans howner
    · exact howner
  · simp only [State.abandon]
    split
    · exact State.leaveGroup_position _ s.countAbandon
    · rw [State.takeOutcome_frame]; rfl

/-- The engine set to nothing sent, inside the round. -/
theorem State.LineOk.silenced {s : State} (h : s.LineOk) (hfrom : s.line.position ≠ .off) {l : LineEngine}
    (hlineState : l.lineState = s.line.lineState) (hto : l.position ≠ .off) (htx : l.tx = [])
    (hdeferred : l.deferredMark = s.line.deferredMark) : ({ s with line := l } : State).LineOk :=
  h.moved rfl rfl rfl rfl hlineState hfrom hto (.inr htx) fun hd => .inr (hdeferred ▸ hd)

theorem LineEngine.receive_frame (r : List Bool) (l : LineEngine) : l.receive r = { l with window := (l.receive r).window } := by
  obtain ⟨_, h⟩ | ⟨w, _, h⟩ := l.receive_cases r <;> rw [h]

theorem State.atWindow_ne_off {s : State} {role : Role} {f : Flight} (h : s.flightAs role = some f) :
    s.line.position ≠ .off ∧ s.station.participates = true := by
  obtain ⟨hfollows, hin, _⟩ := State.flightAs_some h
  exact ⟨Position.ne_off_of_inRound (s.follows_iff.mp hfollows).2, hin⟩

/-! ### The events -/

theorem State.roundExpiry_lineOk {s : State} (h : s.LineOk) : s.roundExpiry.LineOk := by
  unfold State.roundExpiry
  split
  · rename_i hrun
    have hpos : s.line.position ≠ .off := fun hoff => by rw [(h.atRest hoff).1] at hrun; cases hrun
    simp only
    split
    · rename_i hin
      split_ifs
      · exact h.moved rfl rfl rfl rfl rfl hpos hpos (.inl hin) fun _ => .inl hin
      · exact h.moved rfl rfl rfl rfl rfl hpos hpos (.inl hin) fun _ => .inl hin
      · exact h.moved rfl rfl rfl rfl rfl hpos hpos (.inl hin) fun _ => .inl hin
    · rename_i hout
      exact h.moved rfl rfl rfl rfl rfl hpos hpos (.inr (h.silent.resolve_left hout)) .inr
  · exact h

/-- JOINING entered from LISTEN on a line that is not OFF (R11). -/
theorem State.joining_lineOk {s t : State} (h : s.LineOk) (hlisten : s.station = .listen)
    (hstation : t.station = .joining) (hcause : t.cause = s.cause) (hsilence : t.silenceTimer = none)
    (hlineState : t.line.lineState = s.line.lineState) (hto : t.line.position ≠ .off) : t.LineOk := by
  have hup : s.line.lineState = .up := h.stuck.resolve_right (by rw [hlisten]; decide)
  refine ⟨.inl (by rw [hstation]; rfl), ?_, ?_, fun hoff => absurd hoff hto, .inl (by rw [hlineState]; exact hup),
    by rw [hstation]; exact nofun, ?_, by rw [hstation]; exact nofun, fun _ => by rw [hstation]; rfl⟩
  · rw [hcause, h.cause, hlisten, hstation]; decide
  · rw [hstation, hlineState, hup]
    exact ⟨fun hoff => absurd hoff hto, fun hs => hs.elim nofun nofun⟩
  · rw [hsilence, hstation]; exact ⟨nofun, nofun⟩

theorem State.loneStart_lineOk {s : State} (h : s.LineOk) : s.loneStart.LineOk := by
  unfold State.loneStart
  split
  · rename_i hc
    have hpos := Position.ne_off_of_lineIdle hc.2.2
    exact State.joining_lineOk h hc.1 rfl rfl rfl rfl hpos
  · exact h

theorem State.recogniseMark_lineOk {s : State} (h : s.LineOk) : s.recogniseMark.LineOk := by
  unfold State.recogniseMark
  split
  · rename_i hc
    have hpos := Position.ne_off_of_lineIdle (Bool.and_eq_true_iff.mp hc).2
    refine h.moved rfl rfl ?_ rfl rfl hpos nofun h.silent nofun
    simp only
    split
    · exact (h.silence.mpr ‹_›).symm
    · rfl
  · exact h

theorem State.missOwnMark_lineOk {s : State} (h : s.LineOk) : s.missOwnMark.LineOk := by
  unfold State.missOwnMark
  split
  · rename_i hc
    simp only [Bool.and_eq_true] at hc
    have hpos := Position.ne_off_of_lineIdle hc.1.2
    exact h.silenced hpos rfl hpos rfl rfl
  · exact h

theorem State.trailingEdge_lineOk {s : State} (h : s.LineOk) : s.trailingEdge.LineOk := by
  unfold State.trailingEdge
  split
  · rename_i b hpos
    split
    · refine h.moved rfl rfl rfl rfl rfl (by rw [hpos]; exact nofun) nofun ?_ .inr
      cases hin : s.station.participates with
      | true => exact .inl rfl
      | false =>
        refine .inr ?_
        have htx := h.silent.resolve_left (by rw [hin]; decide)
        simp [State.censusSlotTx, hin, htx]
    · exact h
  · exact h

theorem State.takeCensus_lineOk {s : State} (h : s.LineOk) (map : IdSet) : (s.takeCensus map).LineOk := by
  refine h.congr ?_ ?_ ?_ ?_ ?_ <;> rw [State.takeCensus_frame]

theorem State.countListen_lineOk {s : State} (h : s.LineOk) (hpos : s.line.position ≠ .off) : s.countListen.LineOk := by
  unfold State.countListen
  simp only
  split
  · rename_i hlisten
    split
    · exact State.joining_lineOk h hlisten rfl rfl rfl rfl hpos
    · rename_i hcount
      exact ⟨h.silent, h.cause, h.position, h.atRest, h.stuck, h.station, h.silence,
        fun _ => Nat.lt_of_not_le hcount, h.deferred⟩
  · exact h

theorem Position.inRound_of_inCensus {p : Position} (h : p.inCensus = true) : p.inRound = true := by
  cases p <;> first | rfl | cases h

theorem State.finishCensus_lineOk {s : State} (h : s.LineOk) (slots : IdSet) (first : TakenFirst) :
    (s.finishCensus slots first).LineOk := by
  obtain ⟨_, hc⟩ | ⟨_, hpos, hend⟩ := s.finishCensus_cases slots first
  · rw [hc]; exact h
  have hon : s.line.position ≠ .off := Position.ne_off_of_inRound (Position.inRound_of_inCensus hpos)
  have htx : s.station.participates = true ∨ (s.line.endCensus s.image.groupSize slots).tx = [] :=
    h.silent.imp_right fun he => by simp [LineEngine.endCensus, he]
  have hquiet (n : Nat) (hlisten : s.station = .listen) : ((s.pastCensus slots n).enterQuiet .idClash .lost).LineOk := by
    have hup : s.line.lineState = .up := h.stuck.resolve_right (by rw [hlisten]; decide)
    refine State.enterQuiet_lineOk (s := s.pastCensus slots n) htx ?_ nofun
      h.deferred (by decide) _
    exact ⟨nofun, fun hs => absurd (hup.symm.trans hs) (by decide)⟩
  have hpast : (s.pastCensus slots s.listenCount).LineOk := h.moved rfl rfl rfl rfl rfl hon nofun htx .inr
  obtain ⟨hlisten, _, ⟨_, hc⟩ | ⟨_, hc⟩⟩ | ⟨_, hc⟩ := hend <;> rw [hc]
  · have hup : s.line.lineState = .up := h.stuck.resolve_right (by rw [hlisten]; decide)
    have hframe := (s.pastCensus slots (s.listenCount + 1)).takeCensus_frame (slots &&& slotMask s.image.groupSize)
    refine State.enterQuiet_lineOk ?_ ?_ ?_ ?_ (by decide) _ <;> rw [hframe]
    · exact htx
    · exact ⟨nofun, fun hs => absurd (hup.symm.trans hs) (by decide)⟩
    · exact nofun
    · exact h.deferred
  · exact State.takeCensus_lineOk (hquiet _ hlisten) _
  · refine State.countListen_lineOk (State.takeCensus_lineOk hpast _) ?_
    rw [State.takeCensus_frame]
    exact nofun

theorem State.startSweep_lineOk {s : State} (h : s.LineOk) : s.startSweep.LineOk := by
  unfold State.startSweep
  split
  · rename_i hc
    simp only [Bool.and_eq_true] at hc
    have hpos := Position.ne_off_of_inRound (s.follows_iff.mp hc.1.1).2
    exact h.moved rfl rfl rfl rfl rfl hpos nofun (h.silent.imp_right fun he => by simp [he]) .inr
  · exact h

theorem State.finishSweep_lineOk {s : State} (h : s.LineOk) (read : Code) : (s.finishSweep read).LineOk := by
  have hshown (t : State) (r : Code) (b : Bool) (ht : t.LineOk) : (t.takeSweep r b).LineOk := by
    unfold State.takeSweep
    split
    · exact ht.congr rfl rfl rfl rfl rfl
    · exact ht
  unfold State.finishSweep
  split
  · rename_i b p hpos _
    split
    · refine hshown _ _ _ (h.moved rfl rfl rfl rfl rfl (by rw [hpos]; exact nofun) nofun ?_ .inr)
      exact h.silent.imp_right fun he => by simp [he]
    · exact h
  · exact h

theorem State.startWindow_lineOk {s : State} (h : s.LineOk) (driven : Bool) : (s.startWindow driven).LineOk := by
  obtain ⟨_, hc⟩ | ⟨hleft, _, hend⟩ := s.startWindow_cases driven
  · rw [hc]; exact h
  have hpos := Position.ne_off_of_inRound (s.follows_iff.mp (s.windowLeft_iff.mp hleft).1).2
  have hto (f : Option Flight) : (s.line.startWindow driven f).position ≠ .off := by
    cases driven <;> exact nofun
  obtain ⟨_, hc⟩ | ⟨e, he, hc⟩ := hend <;> rw [hc]
  · refine h.moved rfl rfl rfl rfl rfl hpos (hto none) (.inr ?_) .inr
    cases driven <;> rfl
  · have hin := StationState.participates_of_offers (State.candidate_some he).2
    exact h.moved rfl rfl rfl rfl rfl hpos (hto _) (.inl hin) .inr

theorem State.loseContest_lineOk {s : State} (h : s.LineOk) (bit : Nat) : (s.loseContest bit).LineOk := by
  unfold State.loseContest
  split
  · exact h
  · rename_i f hf
    obtain ⟨hpos, hin⟩ := State.atWindow_ne_off hf
    split
    · have hline : (s.takeOutcome .lost).line = s.line := by rw [State.takeOutcome_frame]
      simp only
      rw [LineEngine.receive_frame]
      exact (State.takeOutcome_lineOk h hin .lost).silenced (by rw [hline]; exact hpos) rfl nofun rfl rfl
    · exact h

/-- An abandonment that leaves the engine inside its round with nothing sent. -/
theorem State.abandon_silenced {s : State} (h : s.LineOk) (hin : s.station.participates = true)
    (hpos : s.line.position ≠ .off) (first : TakenFirst) {l : LineEngine}
    (hlineState : l.lineState = (s.abandon first).line.lineState) (hto : l.position ≠ .off) (htx : l.tx = [])
    (hdeferred : l.deferredMark = (s.abandon first).line.deferredMark) :
    ({ s.abandon first with line := l } : State).LineOk :=
  (State.abandon_lineOk h hin first).silenced (by rw [State.abandon_position]; exact hpos) hlineState hto htx hdeferred

theorem State.lineFault_lineOk {s : State} (h : s.LineOk) (bit : Nat) (first : TakenFirst) : (s.lineFault bit first).LineOk := by
  unfold State.lineFault
  split
  · exact h
  · rename_i f hf
    obtain ⟨hpos, hin⟩ := State.atWindow_ne_off hf
    split_ifs
    · exact h
    · exact State.abandon_silenced h hin hpos first rfl (by rw [State.abandon_position]; exact hpos) rfl rfl
    · simp only [State.faultKeyBit]
      rw [LineEngine.receive_frame]
      exact State.abandon_silenced h hin hpos first rfl nofun rfl rfl
    · exact h

theorem State.readBackMismatch_lineOk {s : State} (h : s.LineOk) (bit : Nat) (first : TakenFirst) :
    (s.readBackMismatch bit first).LineOk := by
  unfold State.readBackMismatch
  split
  · exact h
  · rename_i f hf
    obtain ⟨hpos, hin⟩ := State.atWindow_ne_off hf
    split
    · simp only
      rw [LineEngine.receive_frame]
      exact State.abandon_silenced h hin hpos first rfl nofun rfl rfl
    · exact h

theorem State.winKey_lineOk {s : State} (h : s.LineOk) : s.winKey.LineOk := by
  unfold State.winKey
  split
  · exact h
  · rename_i f hf
    obtain ⟨hpos, hin⟩ := State.atWindow_ne_off hf
    split
    · simp only
      rw [LineEngine.receive_frame]
      exact h.moved rfl rfl rfl rfl rfl hpos nofun (.inl hin) .inr
    · exact h

theorem State.sendWhole_lineOk {s : State} (h : s.LineOk) : s.sendWhole.LineOk := by
  obtain ⟨_, hc⟩ | ⟨f, hf, hend⟩ := s.sendWhole_cases
  · rw [hc]; exact h
  have hsent : (s.frameSent f).LineOk := by
    obtain ⟨hpos, _⟩ := State.atWindow_ne_off hf
    unfold State.frameSent LineEngine.endFrame
    rw [LineEngine.receive_frame]
    exact h.silenced hpos rfl nofun rfl rfl
  obtain ⟨_, o, c, q, _, hc⟩ | ⟨_, hc⟩ := hend <;> rw [hc]
  · exact (State.applyAck_reach _ o c q _).lineOk hsent
  · exact hsent

theorem State.readsFrame_follows {s : State} (h : s.readsFrame = true) : s.follows = true := by
  simp only [State.readsFrame, Bool.and_eq_true] at h
  exact h.1.1

theorem State.judge_lineOk {s : State} (h : s.LineOk) (read : BitVec 54) : (s.judge read).LineOk := by
  obtain ⟨_, hc⟩ | ⟨hreads, hend⟩ := s.judge_cases read
  · rw [hc]; exact h
  obtain ⟨hobserves, hround⟩ := s.follows_iff.mp (State.readsFrame_follows hreads)
  have hread (j : Judgement) : (s.frameRead read j).LineOk := by
    unfold State.frameRead State.judged
    rw [LineEngine.receive_frame]
    exact h.moved rfl rfl rfl rfl rfl (Position.ne_off_of_inRound hround) nofun h.silent .inr
  obtain ⟨_, hc⟩ | ⟨_, hc⟩ | ⟨o, f, _, ⟨_, _, hc⟩ | ⟨_, _, hc⟩ | ⟨_, hc⟩⟩ := hend <;> rw [hc]
  · obtain ⟨h1, h2, h3, h4, h5, h6, h7, h8, h9⟩ := hread .rejected
    exact ⟨h1, h2, h3, h4, h5, h6, h7, h8, h9⟩
  · obtain ⟨h1, h2, h3, h4, h5, h6, h7, h8, h9⟩ := hread .rejected
    exact ⟨h1, h2, h3, h4, h5, h6, h7, h8, h9⟩
  · exact hread .accepted
  · refine (hread .accepted).enterQuiet (fun hs => ?_) (by decide) _
    rw [show s.station = .setup from hs] at hobserves
    cases hobserves
  · exact (State.applyFrame_reach o f _).lineOk (hread .accepted)

theorem State.driveReceipt_lineOk {s : State} (h : s.LineOk) : s.driveReceipt.LineOk := by
  unfold State.driveReceipt
  split
  · rename_i hc
    simp only [Bool.and_eq_true] at hc
    obtain ⟨⟨⟨hfollows, hin⟩, _⟩, _⟩ := hc
    exact h.moved rfl rfl rfl rfl rfl (Position.ne_off_of_inRound (s.follows_iff.mp hfollows).2) nofun (.inl hin) .inr
  · exact h

theorem State.finishReceipts_lineOk {s : State} (h : s.LineOk) (slots : IdSet) : (s.finishReceipts slots).LineOk := by
  unfold State.finishReceipts
  split
  · rename_i hc
    simp only [Bool.and_eq_true] at hc
    have hpos := Position.ne_off_of_inRound (s.follows_iff.mp hc.1.1).2
    split
    · rename_i hsender
      have hin := (Bool.and_eq_true_iff.mp hsender).2
      have hline : (s.takeOutcome (.sent (slots &&& slotMask s.image.groupSize))).line = s.line := by
        rw [State.takeOutcome_frame]
      exact (State.takeOutcome_lineOk h hin _).silenced (by rw [hline]; exact hpos) rfl nofun rfl rfl
    · split
      · exact h.silenced hpos rfl nofun rfl rfl
      · exact h
  · exact h

theorem State.finishRound_lineOk {s : State} (h : s.LineOk) : s.finishRound.LineOk := by
  unfold State.finishRound
  split
  · rename_i hc
    simp only [Bool.and_eq_true] at hc
    have hpos := Position.ne_off_of_inRound (s.follows_iff.mp hc.1.1).2
    unfold LineEngine.endRound
    simp only
    split
    · cases hin : s.station.participates with
      | true => exact h.moved rfl rfl rfl rfl rfl hpos nofun (.inl hin) nofun
      | false => exact h.moved rfl rfl rfl rfl rfl hpos nofun (.inr rfl) nofun
    · exact h.silenced hpos rfl nofun rfl rfl
  · exact h

theorem State.leaveGroup_lineState (o : WindowOutcome) (s : State) :
    (s.leaveGroup o).line.lineState = s.line.lineState := by
  obtain ⟨_, hg⟩ | ⟨_, hg⟩ := s.leaveGroup_cases o <;> rw [hg]
  rw [State.freeze_frame]
  rfl

/-- The engine OFF on a stuck line, and the station STUCK or kept in QUIET (R14, R118). -/
theorem State.wentStuck_lineOk {s : State} (hstate : s.line.lineState = .stuck)
    (hquiet : s.station = .quiet → s.cause ≠ .none ∧ s.silenceTimer = none) :
    ((s.goneOff.write .lineStuck true).enterStuck).LineOk := by
  have hline : (s.goneOff.write .lineStuck true).line = s.line.goOff := rfl
  unfold State.enterStuck
  split
  · rename_i hst
    replace hst : s.station = .quiet := hst
    obtain ⟨hcause, hsilence⟩ := hquiet hst
    refine ⟨.inr rfl, ?_, ?_, fun _ => ⟨rfl, rfl, rfl⟩, .inr (.inr hst), fun _ => hstate, ?_, ?_, nofun⟩
    · exact ⟨fun h => absurd h hcause, fun h => absurd hst h⟩
    · exact ⟨fun _ => .inr hstate, fun _ => rfl⟩
    · rw [show (s.goneOff.write .lineStuck true).silenceTimer = none from hsilence,
        show (s.goneOff.write .lineStuck true).station = .quiet from hst]
      exact ⟨nofun, nofun⟩
    · rw [show (s.goneOff.write .lineStuck true).station = .quiet from hst]
      exact nofun
  · exact ⟨.inr rfl, ⟨fun _ => nofun, fun _ => rfl⟩, ⟨fun _ => .inr hstate, fun _ => rfl⟩, fun _ => ⟨rfl, rfl, rfl⟩,
      .inr (.inl rfl), fun _ => hstate, ⟨nofun, nofun⟩, nofun, nofun⟩

theorem State.findStuck_lineOk {s : State} (h : s.LineOk) : s.findStuck.LineOk := by
  obtain ⟨_, hc⟩ | ⟨_, _, hc⟩ := s.findStuck_cases <;> rw [hc]
  · exact h
  refine State.wentStuck_lineOk (s.stuckFound.leaveGroup_lineState .lost) ?_
  obtain ⟨hin, hg⟩ | ⟨_, hg⟩ := s.stuckFound.leaveGroup_cases .lost <;> rw [hg]
  · have hstays := State.takeOutcome_participates hin
    intro hquiet
    have hfrozen : (s.stuckFound.freeze .lost).station.participates = true := by
      obtain ⟨_, hf⟩ | ⟨_, _, _, _, hf⟩ | ⟨_, _, _, hf⟩ := s.stuckFound.freeze_cases .lost <;> rw [hf]
      · exact hin
      · exact hin
      · exact hstays _
    rw [show (s.stuckFound.freeze .lost).station = .quiet from hquiet] at hfrozen
    cases hfrozen
  · intro hquiet
    replace hquiet : s.station = .quiet := hquiet
    refine ⟨fun hnone => h.cause.mp hnone hquiet, ?_⟩
    rw [← Option.not_isSome_iff_eq_none]
    exact fun hsome => absurd ((h.silence.mp hsome).symm.trans hquiet) (by decide)

theorem State.restoreLine_lineOk {s : State} (h : s.LineOk) : s.restoreLine.LineOk := by
  unfold State.restoreLine
  split
  · rename_i hc
    have hoff : s.line.position = .off := h.position.mpr (.inr hc.1)
    obtain ⟨_, hmark, _⟩ := h.atRest hoff
    have htx : s.line.tx = [] := h.silent.resolve_left (by rcases hc.2 with hs | hs <;> rw [hs] <;> decide)
    simp only
    split
    · refine ⟨.inr htx, ⟨fun _ => nofun, fun _ => rfl⟩, ⟨nofun, fun hs => hs.elim nofun nofun⟩, nofun, .inl rfl, nofun,
        ⟨fun _ => rfl, fun _ => rfl⟩, fun _ => Nat.zero_lt_two, fun hd => ?_⟩
      rw [show s.line.deferredMark = true from hd] at hmark
      cases hmark
    · rename_i hnot
      have hquiet : s.station = .quiet := hc.2.resolve_left hnot
      refine ⟨.inr htx, h.cause, ⟨nofun, fun hs => ?_⟩, nofun, .inl rfl, fun hs => absurd hs hnot, h.silence, h.count,
        h.deferred⟩
      rcases hs with hs | hs
      · exact absurd (hquiet.symm.trans hs) nofun
      · cases hs
  · exact h

/-- Every event of the line, of a frame or of a timer keeps station and line in agreement. -/
theorem State.event_lineOk {c : Instr} {f : State → State} (hf : eventOf c = some f) {s : State} (h : s.LineOk) :
    (f s).LineOk := by
  cases c with
  | staleTimerExpiry c => cases hf; exact (s.staleExpiry_calm c).reach.lineOk h
  | roundTimerExpiry => cases hf; exact State.roundExpiry_lineOk h
  | silenceTimerExpiry => cases hf; exact State.loneStart_lineOk h
  | markRecognised => cases hf; exact State.recogniseMark_lineOk h
  | markUnrecognised => cases hf; exact State.missOwnMark_lineOk h
  | markTrailingEdge => cases hf; exact State.trailingEdge_lineOk h
  | censusEnd slots first => cases hf; exact State.finishCensus_lineOk h slots first
  | sweepStart => cases hf; exact State.startSweep_lineOk h
  | sweepEnd read => cases hf; exact State.finishSweep_lineOk h read
  | windowStart driven => cases hf; exact State.startWindow_lineOk h driven
  | contestLost bit => cases hf; exact State.loseContest_lineOk h bit
  | lineFaultAbandon bit first => cases hf; exact State.lineFault_lineOk h bit first
  | keyWon => cases hf; exact State.winKey_lineOk h
  | readBackMismatch bit first => cases hf; exact State.readBackMismatch_lineOk h bit first
  | frameSentWhole => cases hf; exact State.sendWhole_lineOk h
  | frameJudged read => cases hf; exact State.judge_lineOk h read
  | receiptSlot => cases hf; exact State.driveReceipt_lineOk h
  | receiptFieldEnd slots => cases hf; exact State.finishReceipts_lineOk h slots
  | roundEnd => cases hf; exact State.finishRound_lineOk h
  | lineStuck => cases hf; exact State.findStuck_lineOk h
  | lineRestored => cases hf; exact State.restoreLine_lineOk h
  | _ => exact absurd hf (Option.some_ne_none _).symm

/-! ### Requests, resets and bit times -/

/-- In SETUP the line is UP, nothing is driven and no mark is deferred (R1, R102). -/
theorem State.LineOk.inSetup {s : State} (h : s.LineOk) (hsetup : s.station = .setup) :
    s.line.lineState = .up ∧ s.line.tx = [] ∧ s.line.deferredMark = false ∧ s.line.position = .off := by
  have hoff := h.position.mpr (.inl hsetup)
  exact ⟨h.stuck.resolve_right (by rw [hsetup]; decide), h.silent.resolve_left (by rw [hsetup]; decide), (h.atRest hoff).2.1,
    hoff⟩

/-- LISTEN entered on a line that is UP, the engine in a position (R8, R15). -/
theorem State.listening_lineOk {t : State} (hstation : t.station = .listen) (hcause : t.cause = .none)
    (hcount : t.listenCount = 0) (hsilence : t.silenceTimer.isSome = true) (hup : t.line.lineState = .up)
    (hpos : t.line.position ≠ .off) (htx : t.line.tx = []) (hdeferred : t.line.deferredMark = false) : t.LineOk := by
  refine ⟨.inr htx, ?_, ⟨fun hoff => absurd hoff hpos, fun hs => ?_⟩, fun hoff => absurd hoff hpos, .inl hup, ?_, ?_, ?_, ?_⟩
  · exact ⟨fun _ => by rw [hstation]; decide, fun _ => hcause⟩
  · rw [hstation, hup] at hs
    exact hs.elim nofun nofun
  · rw [hstation]; exact nofun
  · exact ⟨fun _ => hstation, fun _ => hsilence⟩
  · rw [hcount]; exact fun _ => Nat.zero_lt_two
  · rw [hdeferred]; exact nofun

theorem State.reset_lineOk (s : State) : s.resetBlocks.LineOk :=
  ⟨.inr rfl, ⟨fun _ => nofun, fun _ => rfl⟩, ⟨fun _ => .inl rfl, fun _ => rfl⟩, fun _ => ⟨rfl, rfl, rfl⟩, .inl rfl, nofun,
    ⟨nofun, nofun⟩, nofun, nofun⟩

theorem State.Served.lineOk {s t : State} (ht : s.Served t) (h : s.LineOk) : t.LineOk := by
  cases ht with
  | started hsetup =>
    obtain ⟨hup, htx, hdeferred, _⟩ := h.inSetup hsetup
    rw [State.startUp_frame]
    exact State.listening_lineOk rfl rfl rfl rfl hup nofun htx hdeferred
  | restarted => exact (s.reset_lineOk).congr rfl rfl rfl rfl rfl
  | quieted hsetup => exact h.enterQuiet hsetup (by decide) _
  | resumed hquiet hup =>
    have hpos : s.line.position ≠ .off := fun hoff => by
      rcases h.position.mp hoff with hs | hs
      · exact absurd (hquiet.symm.trans hs) nofun
      · exact absurd (hup.symm.trans hs) nofun
    refine State.listening_lineOk rfl rfl rfl rfl hup hpos (h.silent.resolve_left (by rw [hquiet]; decide)) ?_
    cases hd : s.line.deferredMark with
    | false => exact hd
    | true => have := h.deferred hd; rw [hquiet] at this; cases this
  | resumedStuck hquiet hstuck =>
    have hoff := h.position.mpr (.inr hstuck)
    refine ⟨.inr (h.silent.resolve_left (by rw [hquiet]; decide)), ⟨fun _ => nofun, fun _ => rfl⟩,
      ⟨fun _ => .inr hstuck, fun _ => hoff⟩, h.atRest, .inr (.inl rfl), fun _ => hstuck, ⟨fun hs => ?_, nofun⟩, nofun,
      fun hd => ?_⟩
    · exact absurd (hquiet.symm.trans (h.silence.mp hs)) nofun
    · exact absurd ((h.atRest hoff).2.1.symm.trans hd) nofun
  | shelved c flag => exact (s.setShelved_reach c flag).lineOk h
  | purged o => exact (s.purge_reach o).lineOk h
  | cleared => exact ⟨h.silent, h.cause, h.position, h.atRest, h.stuck, h.station, h.silence, h.count, h.deferred⟩
  | _ => exact h.congr rfl rfl rfl rfl rfl

/-- A bit time leaves the engine OFF, or takes it from one position to another that is not OFF. -/
theorem Position.walk_off_iff (size windows used : Nat) (sweeping : Bool) (p : Position) :
    p.walk size windows used sweeping = .off ↔ p = .off := by
  cases p with
  | round f b => cases f <;> simp only [Position.walk] <;> (try split_ifs) <;> exact ⟨nofun, nofun⟩
  | _ => simp [Position.walk]

theorem LineEngine.bitTime_position_off (i : Image) (v d : Bool) (l : LineEngine) :
    (l.bitTime i v d).position = .off ↔ l.position = .off := by
  cases v <;> simp [LineEngine.bitTime, LineEngine.advance, Position.walk_off_iff]

/-- At a position that is no census nothing enters the census map. -/
theorem LineEngine.bitTime_censusMap_off {i : Image} {v d : Bool} {l : LineEngine} (h : l.position = .off) :
    (l.bitTime i v d).censusMap = l.censusMap := by
  cases v <;> simp [LineEngine.bitTime, LineEngine.advance, LineEngine.readBit, h]

theorem State.tick_lineOk {s : State} (hrst : s.rst = false) (h : s.LineOk) : s.tick.LineOk := by
  rw [State.tick_eq hrst]
  refine ⟨?_, h.cause, ?_, fun hoff => ?_, ?_, ?_, ?_, h.count, ?_⟩
  · exact h.silent.imp_right fun he => by simp [he]
  · simpa [LineEngine.bitTime_position_off] using h.position
  · rw [LineEngine.bitTime_position_off] at hoff
    obtain ⟨htimer, hmark, hmap⟩ := h.atRest hoff
    exact ⟨by simp [htimer], by simp [hmark], by rw [LineEngine.bitTime_censusMap_off hoff, hmap]⟩
  · simpa using h.stuck
  · simpa using h.station
  · simpa [runTimer] using h.silence
  · simpa using h.deferred

/-- While RST is asserted the position waits for its reset (log entry 7); the rest of the agreement holds as in SETUP. -/
theorem State.assertRst_lineSound (s : State) : s.assertRst.lineSound = true := by
  simp [State.lineSound, State.silentSound, State.causeSound, State.positionSound, State.listenSound, State.assertRst,
    State.releaseLink]

/-- Settles O10: every event moves the engine inside its round or between IDLE and a round, or leaves the group with it. -/
theorem lineStaysSound : Obligations.LineStaysSound := by
  unfold Obligations.LineStaysSound
  intro s t hs hstep
  refine step_keeps (P := fun s => s.lineSound = true) (fun s _ _ _ _ _ _ h => h) (fun s straps => ?_) (fun s _ => ?_)
    (fun s t hrst h ht => ?_) (fun w s hrst h => ?_) (fun c f s hf hrst h => ?_) (fun s hrst h => ?_) hs hstep
  · exact (State.lineSound_iff rfl).mpr (s.reset_lineOk.congr rfl rfl rfl rfl rfl)
  · exact s.assertRst_lineSound
  · exact (State.lineSound_iff (ht.rst.trans hrst)).mpr (ht.lineOk ((State.lineSound_iff hrst).mp h))
  · have hcalm := s.offerWord_calm w
    exact (State.lineSound_iff (hcalm.reach.rst.trans hrst)).mpr (hcalm.reach.lineOk ((State.lineSound_iff hrst).mp h))
  · have hgoes := event_goesOn hf s
    exact (State.lineSound_iff (hgoes.2.2.1.trans hrst)).mpr (State.event_lineOk hf ((State.lineSound_iff hrst).mp h))
  · have htick : s.tick.rst = false := by rw [State.tick_eq hrst]; exact hrst
    exact (State.lineSound_iff htick).mpr (State.tick_lineOk hrst ((State.lineSound_iff hrst).mp h))

end Sys2Proof.Machine
end

section
/-! PROOFS. The frame in flight agrees with the queue entry on the line (R71, R84, R128): O11. -/

namespace Sys2Proof.Machine

/-- The state of the queue entry on the line that a role in a window goes with (R71, R128). -/
def Role.entryState : Role → Option EntryState
  | .contender => some .candidate
  | .sender => some .sending
  | .receiver => none

/-- A window's part, if any, lies in a round, holds a flight outside the role RECEIVER alone, and goes with the state on the line. -/
def PartAgrees (inRound : Bool) (window : Option Window) (onLine : Option EntryState) : Prop :=
  match window with
  | none => onLine = none
  | some w => inRound = true ∧ (w.flight = none ↔ w.role = .receiver) ∧ onLine = w.role.entryState

/-- The agreement of O11, RST apart. -/
structure State.FlightOk (s : State) : Prop where
  agrees : PartAgrees s.line.position.inRound s.line.window (onLineState s.queue)

theorem State.flightSound_iff {s : State} (hrst : s.rst = false) : s.flightSound = true ↔ s.FlightOk := by
  have hagrees : s.FlightOk ↔ PartAgrees s.line.position.inRound s.line.window (onLineState s.queue) :=
    ⟨fun h => h.agrees, fun h => ⟨h⟩⟩
  rw [hagrees]
  unfold State.flightSound PartAgrees
  rw [hrst, Bool.false_or]
  cases s.line.window with
  | none => rw [onLineState_none, Option.isNone_iff_eq_none]
  | some w =>
    simp only [Bool.and_eq_true, decide_eq_true_eq, and_assoc, onLineState]
    cases w.role <;> rfl

/-- The window's part, if any, receives, inside a round. -/
def LineEngine.Listens (l : LineEngine) : Prop :=
  ∀ w, l.window = some w → l.position.inRound = true ∧ w.flight = none ∧ w.role = .receiver

theorem LineEngine.listens_of_none {l : LineEngine} (h : l.window = none) : l.Listens := by
  intro w hw
  rw [h] at hw
  cases hw

theorem State.flightOk_of_listens {s : State} (hnone : lineEntry s.queue = none) (hl : s.line.Listens) : s.FlightOk := by
  constructor
  unfold PartAgrees
  rw [onLineState_none.mpr hnone]
  cases hw : s.line.window with
  | none => rfl
  | some w =>
    obtain ⟨hin, hflight, hrole⟩ := hl w hw
    exact ⟨hin, ⟨fun _ => hrole, fun _ => hflight⟩, by rw [hrole]; rfl⟩

theorem State.FlightOk.listens {s : State} (h : s.FlightOk) (hnone : lineEntry s.queue = none) : s.line.Listens := by
  intro w hw
  replace h := h.agrees
  unfold PartAgrees at h
  rw [hw, onLineState_none.mpr hnone] at h
  obtain ⟨hin, hflight, hstate⟩ := h
  have hrole : w.role = .receiver := by
    cases hr : w.role <;> rw [hr] at hstate
    · cases hstate
    · cases hstate
  exact ⟨hin, hflight.mpr hrole, hrole⟩

/-- Outside a round there is no part in a window and no entry on the line. -/
theorem State.FlightOk.outside {s : State} (h : s.FlightOk) (hout : s.line.position.inRound = false) :
    s.line.window = none ∧ lineEntry s.queue = none := by
  replace h := h.agrees
  unfold PartAgrees at h
  cases hw : s.line.window with
  | none => rw [hw] at h; exact ⟨rfl, onLineState_none.mp h⟩
  | some w =>
    rw [hw] at h
    obtain ⟨hin, _⟩ := h
    rw [hout] at hin
    cases hin

theorem Position.inRound_of_lineIdle {p : Position} (h : p.lineIdle = true) : p.inRound = false := by
  cases p <;> first | rfl | cases h

/-- The part goes on in its role with its flight, the entry on the line in its state, inside the round. -/
theorem State.FlightOk.goesOn {s t : State} (h : s.FlightOk) {g : Window → Window}
    (hg : ∀ w, (g w).role = w.role ∧ (g w).flight = w.flight) (hwindow : t.line.window = s.line.window.map g)
    (hpos : s.line.position.inRound = true → t.line.position.inRound = true)
    (hstate : onLineState t.queue = onLineState s.queue) : t.FlightOk := by
  replace h := h.agrees
  constructor
  unfold PartAgrees at h ⊢
  rw [hwindow, hstate]
  cases hw : s.line.window with
  | none => rw [hw] at h; exact h
  | some w =>
    rw [hw] at h
    obtain ⟨hin, hflight, hst⟩ := h
    obtain ⟨hrole, hfl⟩ := hg w
    exact ⟨hpos hin, by rw [hrole, hfl]; exact hflight, by rw [hrole]; exact hst⟩

theorem State.FlightOk.moved {s t : State} (h : s.FlightOk) (hwindow : t.line.window = s.line.window)
    (hpos : s.line.position.inRound = true → t.line.position.inRound = true)
    (hstate : onLineState t.queue = onLineState s.queue) : t.FlightOk :=
  h.goesOn (g := fun w => w) (fun _ => ⟨rfl, rfl⟩) (by rw [hwindow, Option.map_id']) hpos hstate

theorem State.Calm.flightOk {s t : State} (ht : s.Calm t) (hq : QueueOk s.id s.queue) (h : s.FlightOk) : t.FlightOk :=
  h.moved (by rw [ht.reach.line]) (by rw [ht.reach.line]; exact fun hin => hin) (ht.queue.line hq)

/-! ### Outcomes, abandonments, and leaving the group -/

theorem Window.stopSending_receives (w : Window) : w.stopSending.flight = none ∧ w.stopSending.role = .receiver := ⟨rfl, rfl⟩

/-- A station that stops sending reads the rest of the window (R132, R133, R135). -/
theorem LineEngine.stopSending_listens (l : LineEngine) (b : Nat) : (l.stopSending.pastBit b).Listens := by
  intro w hw
  obtain ⟨v, _, rfl⟩ := Option.map_eq_some_iff.mp (show l.window.map Window.stopSending = some w from hw)
  exact ⟨rfl, v.stopSending_receives⟩

theorem LineEngine.leave_listens {l : LineEngine} (h : l.window.isSome = true → l.position.inRound = true) : l.leave.Listens := by
  intro w hw
  obtain ⟨v, hv, rfl⟩ := Option.map_eq_some_iff.mp (show l.window.map Window.stopSending = some w from hw)
  exact ⟨h (by rw [hv]; rfl), v.stopSending_receives⟩

theorem State.FlightOk.inRound {s : State} (h : s.FlightOk) (hw : s.line.window.isSome = true) :
    s.line.position.inRound = true := by
  cases hin : s.line.position.inRound with
  | true => rfl
  | false => rw [(h.outside hin).1] at hw; cases hw

/-- Leaving the group drops the flight with the entry on the line (R97, R138). -/
theorem State.leaveGroup_listens {s : State} (hq : s.QueueGood) (h : s.FlightOk) (o : WindowOutcome) :
    (s.leaveGroup o).line.Listens := by
  obtain ⟨_, hc⟩ | ⟨hout, hc⟩ := s.leaveGroup_cases o <;> rw [hc]
  · rw [State.freeze_frame]
    exact LineEngine.leave_listens h.inRound
  · exact h.listens (hq.2.resolve_left (by rw [hout]; decide))

theorem State.enterQuiet_flightOk {s : State} (hq : s.QueueGood) (h : s.FlightOk) (c : QuietCause) (o : WindowOutcome) :
    (s.enterQuiet c o).FlightOk :=
  State.flightOk_of_listens (State.enterQuiet_queue hq c o).2 (State.leaveGroup_listens hq h o)

theorem LineEngine.receive_listens (r : List Bool) (b : Nat) (l : LineEngine) :
    (((l.receive r).stopSending).pastBit b).Listens := LineEngine.stopSending_listens _ _

/-! ### The events -/

theorem State.roundExpiry_flightOk {s : State} (h : s.FlightOk) : s.roundExpiry.FlightOk := by
  unfold State.roundExpiry
  split
  · simp only
    split_ifs
    all_goals exact ⟨h.agrees⟩
  · exact h

theorem stageReplay_none {q : List QueueEntry} (h : lineEntry q = none) : lineEntry (stageReplay q) = none := by
  unfold stageReplay
  split
  · rw [← onLineState_none, onLineState_append rfl, onLineState_none]
    exact h
  · refine lineEntry_none.mpr fun e he => ?_
    rcases mem_updateSlot he with ⟨he, _⟩ | ⟨e', _, _, rfl⟩
    · exact lineEntry_none.mp h e he
    · rfl

/-- JOINING is entered with nothing on the line (R75, R76). -/
theorem State.enterJoining_none {s : State} (h : QueueOk s.id s.queue) (hnone : lineEntry s.queue = none) :
    lineEntry s.enterJoining.queue = none := by
  have hcalm := (resetForReplay_calm s.id (stageReplay s.queue)).trans (reannounceAll_calm s.id s.id s.table _)
  rw [← onLineState_none]
  exact (hcalm.line (stageReplay_ok h)).trans (onLineState_none.mpr (stageReplay_none hnone))

theorem State.loneStart_flightOk {s : State} (hq : s.QueueGood) (h : s.FlightOk) : s.loneStart.FlightOk := by
  unfold State.loneStart
  split
  · rename_i hc
    obtain ⟨hwindow, hnone⟩ := h.outside (Position.inRound_of_lineIdle hc.2.2)
    exact State.flightOk_of_listens (State.enterJoining_none hq.1 hnone) (LineEngine.listens_of_none hwindow)
  · exact h

theorem State.recogniseMark_flightOk {s : State} (hq : s.QueueGood) (h : s.FlightOk) : s.recogniseMark.FlightOk := by
  unfold State.recogniseMark
  split
  · rename_i hc
    obtain ⟨_, hnone⟩ := h.outside (Position.inRound_of_lineIdle (Bool.and_eq_true_iff.mp hc).2)
    refine State.flightOk_of_listens ?_ (LineEngine.listens_of_none rfl)
    exact onLineState_none.mp (((wakeResting_calm s.id s.queue).line hq.1).trans (onLineState_none.mpr hnone))
  · exact h

theorem State.missOwnMark_flightOk {s : State} (h : s.FlightOk) : s.missOwnMark.FlightOk := by
  unfold State.missOwnMark
  split
  · exact ⟨h.agrees⟩
  · exact h

theorem State.trailingEdge_flightOk {s : State} (h : s.FlightOk) : s.trailingEdge.FlightOk := by
  unfold State.trailingEdge
  split
  · split
    · exact h.moved rfl (fun _ => rfl) rfl
    · exact h
  · exact h

theorem State.countListen_flightOk {s : State} (hq : s.QueueGood) (h : s.FlightOk) : s.countListen.FlightOk := by
  unfold State.countListen
  simp only
  split
  · rename_i hlisten
    have hnone := hq.2.resolve_left (by rw [hlisten]; decide)
    split
    · exact State.flightOk_of_listens (State.enterJoining_none (s := { s with listenCount := s.listenCount + 1 }) hq.1 hnone)
        (h.listens hnone)
    · exact ⟨h.agrees⟩
  · exact h

/-- A census takes peers out of receipts, and leaves the line and what is on it. -/
theorem State.takeCensus_flightOk {s : State} (hq : s.QueueGood) (h : s.FlightOk) (map : IdSet) :
    (s.takeCensus map).QueueGood ∧ (s.takeCensus map).FlightOk := by
  have hcalm := s.takeCensus_calm s.id map
  have hline : (s.takeCensus map).line = s.line := by rw [State.takeCensus_frame]
  refine ⟨hq.calm (by rw [State.takeCensus_frame]) (by rw [State.takeCensus_frame]) hcalm, ?_⟩
  exact h.moved (by rw [hline]) (by rw [hline]; exact fun hin => hin) (hcalm.line hq.1)

theorem State.finishCensus_flightOk {s : State} (hq : s.QueueGood) (h : s.FlightOk) (slots : IdSet) (first : TakenFirst) :
    (s.finishCensus slots first).FlightOk := by
  have hpast (n : Nat) : (s.pastCensus slots n).FlightOk := h.moved rfl (fun _ => rfl) rfl
  have hgood (n : Nat) : (s.pastCensus slots n).QueueGood := hq
  obtain ⟨_, hc⟩ | ⟨_, _, ⟨_, _, ⟨_, hc⟩ | ⟨_, hc⟩⟩ | ⟨_, hc⟩⟩ := s.finishCensus_cases slots first <;> rw [hc]
  · exact h
  · obtain ⟨hq', h'⟩ := State.takeCensus_flightOk (hgood (s.listenCount + 1)) (hpast _) (slots &&& slotMask s.image.groupSize)
    exact State.enterQuiet_flightOk hq' h' _ _
  · exact (State.takeCensus_flightOk (State.enterQuiet_queueGood (hgood _) _ _)
      (State.enterQuiet_flightOk (hgood _) (hpast _) _ _) _).2
  · obtain ⟨hq', h'⟩ := State.takeCensus_flightOk (hgood s.listenCount) (hpast _) (slots &&& slotMask s.image.groupSize)
    exact State.countListen_flightOk hq' h'

theorem State.startSweep_flightOk {s : State} (h : s.FlightOk) : s.startSweep.FlightOk := by
  unfold State.startSweep
  split
  · exact h.moved rfl (fun _ => rfl) rfl
  · exact h

theorem State.finishSweep_flightOk {s : State} (h : s.FlightOk) (read : Code) : (s.finishSweep read).FlightOk := by
  have hshown (t : State) (r : Code) (b : Bool) (ht : t.FlightOk) : (t.takeSweep r b).FlightOk := by
    unfold State.takeSweep
    split
    · exact ⟨ht.agrees⟩
    · exact ht
  unfold State.finishSweep
  split
  · split
    · exact hshown _ _ _ (h.moved rfl (fun _ => rfl) rfl)
    · exact h
  · exact h

/-- The choice of a candidate makes the station a contender with a frame in flight; without one it listens, if the window is held
at all (R113, R130). -/
theorem State.startWindow_flightOk {s : State} (hq : s.QueueGood) (h : s.FlightOk) (driven : Bool) :
    (s.startWindow driven).FlightOk := by
  obtain ⟨_, hc⟩ | ⟨hleft, _, hend⟩ := s.startWindow_cases driven
  · rw [hc]; exact h
  obtain ⟨_, _, hnone⟩ := s.windowLeft_iff.mp hleft
  have hcalm := refreshSeverity_calm s.id s s.queue
  have hrefreshed : lineEntry (s.queue.map s.refreshSeverity) = none :=
    onLineState_none.mp ((hcalm.line hq.1).trans (onLineState_none.mpr hnone))
  obtain ⟨_, hc⟩ | ⟨e, he, hc⟩ := hend <;> rw [hc]
  · refine State.flightOk_of_listens hrefreshed fun w hw => ?_
    cases driven with
    | false => cases hw
    | true => obtain rfl := Option.some.inj hw; exact ⟨rfl, rfl, rfl⟩
  · have hstate := (QueueOk.candidate (hcalm.ok hq.1) hrefreshed (State.candidate_some he).1).2
    have hwindow (f : Flight) : (s.line.startWindow driven (some f)).window = some (windowPart (some f)) := by
      cases driven <;> rfl
    have hround (f : Flight) : (s.line.startWindow driven (some f)).position.inRound = true := by cases driven <;> rfl
    constructor
    unfold PartAgrees
    simp only [hwindow]
    exact ⟨hround _, ⟨nofun, nofun⟩, hstate⟩

theorem State.loseContest_flightOk {s : State} (hq : s.QueueGood) (h : s.FlightOk) (bit : Nat) : (s.loseContest bit).FlightOk := by
  unfold State.loseContest
  split
  · exact h
  · split
    · exact State.flightOk_of_listens (State.takeOutcome_queue hq.1 _).2 (LineEngine.receive_listens _ _ _)
    · exact h

theorem State.lineFault_flightOk {s : State} (hq : s.QueueGood) (h : s.FlightOk) (bit : Nat) (first : TakenFirst) :
    (s.lineFault bit first).FlightOk := by
  unfold State.lineFault
  split
  · exact h
  · split_ifs
    · exact h
    · exact State.flightOk_of_listens (State.abandon_queue hq first).2 (LineEngine.listens_of_none rfl)
    · exact State.flightOk_of_listens (State.abandon_queue hq first).2 (LineEngine.receive_listens _ _ _)
    · exact h

theorem State.readBackMismatch_flightOk {s : State} (hq : s.QueueGood) (h : s.FlightOk) (bit : Nat) (first : TakenFirst) :
    (s.readBackMismatch bit first).FlightOk := by
  unfold State.readBackMismatch
  split
  · exact h
  · split
    · exact State.flightOk_of_listens (State.abandon_queue hq first).2 (LineEngine.receive_listens _ _ _)
    · exact h

/-- The entry that won the key is SENDING where it was CANDIDATE (R134). -/
theorem onLineState_won (q : List QueueEntry) :
    onLineState (q.map (fun e => if e.state = .candidate then { e with state := .sending } else e)) =
      (onLineState q).map (fun st => if st = .candidate then .sending else st) := by
  have hline (e : QueueEntry) :
      (if e.state = .candidate then { e with state := .sending } else e : QueueEntry).onLine = e.onLine := by
    split
    · simp [QueueEntry.onLine, *]
    · rfl
  have hstate (e : QueueEntry) : (if e.state = .candidate then { e with state := .sending } else e : QueueEntry).state =
      if e.state = .candidate then .sending else e.state := by split <;> rfl
  unfold onLineState lineEntry
  simp only [List.find?_map, Function.comp_def, hline, Option.map_map, hstate]

theorem State.winKey_flightOk {s : State} (h : s.FlightOk) : s.winKey.FlightOk := by
  unfold State.winKey
  split
  · exact h
  · rename_i f hf
    obtain ⟨_, _, w, hw, hrole, _, hflight⟩ := State.flightAs_some hf
    split
    · replace h := h.agrees
      constructor
      unfold PartAgrees at h ⊢
      rw [hw] at h
      obtain ⟨_, _, hstate⟩ := h
      rw [hrole] at hstate
      simp only [LineEngine.receive, hw, LineEngine.pastBit, Option.map_some, onLineState_won, hstate]
      exact ⟨rfl, ⟨fun hnone => absurd (hflight.symm.trans hnone) nofun, nofun⟩, rfl⟩
    · exact h

theorem LineEngine.receive_window (r : List Bool) (l : LineEngine) :
    (l.receive r).window = l.window.map (fun w => { w with received := r }) := by
  unfold LineEngine.receive
  split <;> simp [*]

theorem State.sendWhole_flightOk {s : State} (hq : s.QueueGood) (h : s.FlightOk) : s.sendWhole.FlightOk := by
  have hsent (f : Flight) : (s.frameSent f).FlightOk := by
    refine h.goesOn (g := fun w => { w with received := f.bits, sentWhole := true }) (fun _ => ⟨rfl, rfl⟩) ?_ (fun _ => rfl) rfl
    simp [State.frameSent, LineEngine.endFrame, LineEngine.pastBit, LineEngine.receive_window, Function.comp_def]
  have hgood (f : Flight) : (s.frameSent f).QueueGood := hq
  obtain ⟨_, hc⟩ | ⟨f, _, ⟨_, o, c, q, _, hc⟩ | ⟨_, hc⟩⟩ := s.sendWhole_cases <;> rw [hc]
  · exact h
  · exact (State.applyAck_calm _ o c q _).flightOk (hgood f).1 (hsent f)
  · exact hsent f

theorem State.judge_flightOk {s : State} (hq : s.QueueGood) (h : s.FlightOk) (read : BitVec 54) : (s.judge read).FlightOk := by
  have hread (j : Judgement) : (s.frameRead read j).FlightOk := by
    refine h.goesOn (g := fun w => { w with received := msbBits read, judgement := some j }) (fun _ => ⟨rfl, rfl⟩) ?_
      (fun _ => rfl) rfl
    simp [State.frameRead, State.judged, LineEngine.pastBit, LineEngine.receive_window, Function.comp_def]
  have hgood (j : Judgement) : (s.frameRead read j).QueueGood := hq
  obtain ⟨_, hc⟩ | ⟨_, ⟨_, hc⟩ | ⟨_, hc⟩ | ⟨o, f, hj, ⟨_, _, hc⟩ | ⟨_, _, hc⟩ | ⟨_, hc⟩⟩⟩ := s.judge_cases read <;> rw [hc]
  · exact h
  · exact ⟨(hread .rejected).agrees⟩
  · exact ⟨(hread .rejected).agrees⟩
  · exact hread .accepted
  · exact State.enterQuiet_flightOk (hgood .accepted) (hread .accepted) _ _
  · exact (State.applyFrame_calm hj _).flightOk (hgood .accepted).1 (hread .accepted)

theorem State.driveReceipt_flightOk {s : State} (h : s.FlightOk) : s.driveReceipt.FlightOk := by
  unfold State.driveReceipt
  split
  · exact h.moved rfl (fun _ => rfl) rfl
  · exact h

theorem State.finishReceipts_flightOk {s : State} (hq : s.QueueGood) (h : s.FlightOk) (slots : IdSet) :
    (s.finishReceipts slots).FlightOk := by
  unfold State.finishReceipts
  split_ifs with _ _ hnone
  · exact State.flightOk_of_listens (State.takeOutcome_queue hq.1 _).2 (LineEngine.stopSending_listens _ _)
  · exact State.flightOk_of_listens (Option.isNone_iff_eq_none.mp hnone) (LineEngine.stopSending_listens _ _)
  · exact h
  · exact h

theorem LineEngine.endRound_window (p : Bool) (l : LineEngine) : (l.endRound p).window = none := by
  unfold LineEngine.endRound
  simp only
  split_ifs <;> rfl

theorem State.finishRound_flightOk {s : State} (h : s.FlightOk) : s.finishRound.FlightOk := by
  unfold State.finishRound
  split
  · rename_i hc
    exact State.flightOk_of_listens (Option.isNone_iff_eq_none.mp (Bool.and_eq_true_iff.mp hc).2)
      (LineEngine.listens_of_none (LineEngine.endRound_window _ _))
  · exact h

theorem State.findStuck_flightOk {s : State} (hq : s.QueueGood) (h : s.FlightOk) : s.findStuck.FlightOk := by
  obtain ⟨_, hc⟩ | ⟨_, _, hc⟩ := s.findStuck_cases <;> rw [hc]
  · exact h
  have hgone : lineEntry (s.stuckFound.leaveGroup .lost).queue = none := (State.leaveGroup_queue (s := s.stuckFound) hq .lost).2
  unfold State.enterStuck
  split
  · exact State.flightOk_of_listens hgone (LineEngine.listens_of_none rfl)
  · exact State.flightOk_of_listens hgone (LineEngine.listens_of_none rfl)

theorem State.restoreLine_flightOk {s : State} (hl : s.LineOk) (h : s.FlightOk) : s.restoreLine.FlightOk := by
  unfold State.restoreLine
  split
  · rename_i hc
    have hoff : s.line.position = .off := hl.position.mpr (.inr hc.1)
    obtain ⟨hwindow, hnone⟩ := h.outside (by rw [hoff]; rfl)
    simp only
    split
    · exact State.flightOk_of_listens hnone (LineEngine.listens_of_none hwindow)
    · exact State.flightOk_of_listens hnone (LineEngine.listens_of_none hwindow)
  · exact h

theorem State.event_flightOk {c : Instr} {f : State → State} (hf : eventOf c = some f) {s : State} (hq : s.QueueGood)
    (hl : s.LineOk) (h : s.FlightOk) : (f s).FlightOk := by
  cases c with
  | staleTimerExpiry c => cases hf; exact (s.staleExpiry_calm c).flightOk hq.1 h
  | roundTimerExpiry => cases hf; exact State.roundExpiry_flightOk h
  | silenceTimerExpiry => cases hf; exact State.loneStart_flightOk hq h
  | markRecognised => cases hf; exact State.recogniseMark_flightOk hq h
  | markUnrecognised => cases hf; exact State.missOwnMark_flightOk h
  | markTrailingEdge => cases hf; exact State.trailingEdge_flightOk h
  | censusEnd slots first => cases hf; exact State.finishCensus_flightOk hq h slots first
  | sweepStart => cases hf; exact State.startSweep_flightOk h
  | sweepEnd read => cases hf; exact State.finishSweep_flightOk h read
  | windowStart driven => cases hf; exact State.startWindow_flightOk hq h driven
  | contestLost bit => cases hf; exact State.loseContest_flightOk hq h bit
  | lineFaultAbandon bit first => cases hf; exact State.lineFault_flightOk hq h bit first
  | keyWon => cases hf; exact State.winKey_flightOk h
  | readBackMismatch bit first => cases hf; exact State.readBackMismatch_flightOk hq h bit first
  | frameSentWhole => cases hf; exact State.sendWhole_flightOk hq h
  | frameJudged read => cases hf; exact State.judge_flightOk hq h read
  | receiptSlot => cases hf; exact State.driveReceipt_flightOk h
  | receiptFieldEnd slots => cases hf; exact State.finishReceipts_flightOk hq h slots
  | roundEnd => cases hf; exact State.finishRound_flightOk h
  | lineStuck => cases hf; exact State.findStuck_flightOk hq h
  | lineRestored => cases hf; exact State.restoreLine_flightOk hl h
  | _ => exact absurd hf (Option.some_ne_none _).symm

/-! ### Requests and bit times -/

theorem State.startUp_flightOk {s : State} (hoff : s.line.position = .off) (h : s.FlightOk) : s.startUp.FlightOk := by
  obtain ⟨hwindow, hnone⟩ := h.outside (by rw [hoff]; rfl)
  have hline : s.startUp.line.window = none := by rw [State.startUp_frame]; exact hwindow
  have hqueue : s.startUp.queue = s.queue := by rw [State.startUp_frame]; rfl
  exact State.flightOk_of_listens (by rw [hqueue]; exact hnone) (LineEngine.listens_of_none hline)

theorem State.Served.flightOk {s t : State} (ht : s.Served t) (hq : s.QueueGood) (hl : s.LineOk) (h : s.FlightOk) :
    t.FlightOk := by
  cases ht with
  | started hsetup => exact State.startUp_flightOk (hl.inSetup hsetup).2.2.2 h
  | restarted => exact State.flightOk_of_listens rfl (LineEngine.listens_of_none rfl)
  | quieted => exact State.enterQuiet_flightOk hq h _ _
  | acknowledging e slot => exact h.moved rfl (fun hin => hin) (onLineState_append rfl)
  | shelved c flag => exact (s.setShelved_calm c flag).flightOk hq.1 h
  | purged o => exact (s.purge_calm o).flightOk hq.1 h
  | _ => exact ⟨h.agrees⟩

theorem Position.walk_inRound (size windows used : Nat) (sweeping : Bool) {p : Position} (h : p.inRound = true) :
    (p.walk size windows used sweeping).inRound = true := by
  cases p with
  | round f b => cases f <;> simp only [Position.walk] <;> (try split_ifs) <;> rfl
  | _ => cases h

/-- A bit time reads into a window's part, or drops one that receives; its role and flight stay (R128). -/
theorem LineEngine.bitTime_window_cases (i : Image) (v d : Bool) (l : LineEngine) :
    (∃ g : Window → Window, (∀ w, (g w).role = w.role ∧ (g w).flight = w.flight) ∧
        (l.bitTime i v d).window = l.window.map g) ∨
      ((∃ w, l.window = some w ∧ w.role = .receiver) ∧ (l.bitTime i v d).window = none) := by
  have hread (m : LineEngine) : ∃ g : Window → Window, (∀ w, (g w).role = w.role ∧ (g w).flight = w.flight) ∧
      (m.readBit i.groupSize d).window = m.window.map g := by
    unfold LineEngine.readBit
    split
    · exact ⟨id, fun _ => ⟨rfl, rfl⟩, by split <;> simp⟩
    · exact ⟨id, fun _ => ⟨rfl, rfl⟩, by simp⟩
    · exact ⟨Window.readBit i.groupSize _ d, fun w => ⟨by simp, by simp⟩, rfl⟩
    · exact ⟨id, fun _ => ⟨rfl, rfl⟩, by simp⟩
  have hcounted : ∃ m : LineEngine, m.window = l.window ∧
      (l.bitTime i v d).window = ((m.readBit i.groupSize d).closeWindow i.groupSize).window := by
    cases v
    · exact ⟨l, rfl, rfl⟩
    · exact ⟨l.countBit d, rfl, rfl⟩
  obtain ⟨m, hm, hc⟩ := hcounted
  obtain ⟨g, hg, hw⟩ := hread m
  rw [hc, ← hm]
  obtain hclose | ⟨_, ⟨w, hsome, hrole⟩, hclose⟩ := (m.readBit i.groupSize d).closeWindow_cases i.groupSize <;> rw [hclose]
  · exact .inl ⟨g, hg, hw⟩
  · obtain ⟨u, hu, rfl⟩ := Option.map_eq_some_iff.mp (hw.symm.trans hsome)
    exact .inr ⟨⟨u, hu, (hg u).1 ▸ hrole⟩, rfl⟩

theorem LineEngine.bitTime_inRound (i : Image) (v d : Bool) {l : LineEngine} (h : l.position.inRound = true) :
    (l.bitTime i v d).position.inRound = true := by
  cases v <;> simp [LineEngine.bitTime, LineEngine.advance, Position.walk_inRound, h]

theorem State.tick_flightOk {s : State} (hrst : s.rst = false) (h : s.FlightOk) : s.tick.FlightOk := by
  rw [State.tick_eq hrst]
  obtain ⟨g, hg, hw⟩ | ⟨⟨w, hw, hrole⟩, hnone⟩ := s.line.bitTime_window_cases s.image (decide (s.station ≠ .setup)) s.grx
  · exact h.goesOn hg hw (LineEngine.bitTime_inRound _ _ _) rfl
  · refine State.flightOk_of_listens ?_ (LineEngine.listens_of_none hnone)
    replace h := h.agrees
    unfold PartAgrees at h
    rw [hw] at h
    obtain ⟨_, _, hstate⟩ := h
    rw [hrole] at hstate
    exact onLineState_none.mp hstate

/-- Settles O11, with O9 and O10 carried along: an entry comes on the line with its flight, both change with the key won, and every
outcome, abandonment and leaving of the group takes both away. -/
theorem flightAgreesWithTheQueue : Obligations.FlightAgreesWithTheQueue := by
  unfold Obligations.FlightAgreesWithTheQueue
  intro s t hqueue hline hflight hstep
  have hall : t.queueSound = true ∧ t.lineSound = true ∧ t.flightSound = true := by
    refine step_keeps (P := fun s => s.queueSound = true ∧ s.lineSound = true ∧ s.flightSound = true)
      (fun s _ _ _ _ _ _ h => h) (fun s straps => ?_) (fun s h => ?_) (fun s t hrst h ht => ?_) (fun w s hrst h => ?_)
      (fun c f s hevent hrst h => ?_) (fun s hrst h => ?_) ⟨hqueue, hline, hflight⟩ hstep
    · exact ⟨(State.queueSound_iff _).mpr ⟨.nil _, .inr (.inr rfl)⟩,
        (State.lineSound_iff rfl).mpr (s.reset_lineOk.congr rfl rfl rfl rfl rfl), rfl⟩
    · exact ⟨(State.queueSound_iff _).mpr ⟨(s.queueSound_iff.mp h.1).1, .inl rfl⟩, s.assertRst_lineSound, rfl⟩
    all_goals
      obtain ⟨hq, hl, hf⟩ := h
      rw [State.queueGood_iff hrst] at hq
      rw [State.lineSound_iff hrst] at hl
      rw [State.flightSound_iff hrst] at hf
    · have hoff := ht.rst.trans hrst
      exact ⟨(State.queueGood_iff hoff).mpr (ht.queueGood hq), (State.lineSound_iff hoff).mpr (ht.lineOk hl),
        (State.flightSound_iff hoff).mpr (ht.flightOk hq hl hf)⟩
    · have hcalm := s.offerWord_calm w
      have hoff := hcalm.reach.rst.trans hrst
      exact ⟨(State.queueGood_iff hoff).mpr (hcalm.queueGood hq), (State.lineSound_iff hoff).mpr (hcalm.reach.lineOk hl),
        (State.flightSound_iff hoff).mpr (hcalm.flightOk hq.1 hf)⟩
    · have hoff := (event_goesOn hevent s).2.2.1.trans hrst
      exact ⟨(State.queueGood_iff hoff).mpr (State.event_queueGood hevent hq),
        (State.lineSound_iff hoff).mpr (State.event_lineOk hevent hl),
        (State.flightSound_iff hoff).mpr (State.event_flightOk hevent hq hl hf)⟩
    · have hoff : s.tick.rst = false := by rw [State.tick_eq hrst]; exact hrst
      refine ⟨(State.queueGood_iff hoff).mpr ?_, (State.lineSound_iff hoff).mpr (State.tick_lineOk hrst hl),
        (State.flightSound_iff hoff).mpr (State.tick_flightOk hrst hf)⟩
      rw [State.tick_eq hrst]
      exact hq
  exact hall.2.2

end Sys2Proof.Machine
end

section
/-! PROOFS. SETUP holds nothing, and a disabled channel keeps its reset values (R37, R38, R67, R73, R148, R198): O12. -/

namespace Sys2Proof.Machine

/-! ### The two conditions -/

/-- Table, queue and feed are empty, monitors and roster as after a reset. -/
structure State.Holds0 (s : State) : Prop where
  entries : s.table.entries = []
  queue : s.queue = []
  records : s.feed.records = []
  gap : s.feed.gap = 0
  monitors : s.monitors = Vector.replicate 8 Monitor.reset
  roster : s.roster = Vector.replicate 32 Peer.reset

theorem State.setupSound_iff {s : State} (hrst : s.rst = false) : s.setupSound = true ↔ (s.station = .setup → s.Holds0) := by
  have hparts : s.setupSound = true ↔ (s.station = .setup → s.table.entries = [] ∧ s.queue = [] ∧ s.feed.records = [] ∧
      s.feed.gap = 0 ∧ s.monitors = Vector.replicate 8 Monitor.reset ∧ s.roster = Vector.replicate 32 Peer.reset) := by
    simp only [State.setupSound, hrst, Bool.false_or, Bool.or_eq_true, Bool.and_eq_true, decide_eq_true_eq,
      List.isEmpty_iff, and_assoc, ne_eq, imp_iff_not_or]
  rw [hparts]
  refine forall_congr' fun _ => ⟨fun h => ?_, fun h => ⟨h.entries, h.queue, h.records, h.gap, h.monitors, h.roster⟩⟩
  obtain ⟨hentries, hqueue, hrecords, hgap, hmonitors, hroster⟩ := h
  exact ⟨hentries, hqueue, hrecords, hgap, hmonitors, hroster⟩

/-- A channel's monitor is as after a reset but for its shelved flag, and it has no own-origin entry (R38). -/
def State.Unused (s : State) (c : Channel) : Prop :=
  s.monitor c = { Monitor.reset with record := { Record.reset with shelved := (s.monitor c).record.shelved } } ∧
    s.table.find s.id c = none

theorem State.disabledSound_iff (s : State) :
    s.disabledSound = true ↔ ∀ c, (s.image.channel c).enable = false → s.Unused c := by
  unfold State.disabledSound State.Unused
  rw [List.all_eq_true]
  have hparts (c : Channel) : ((s.image.channel c).enable || (decide (s.monitor c = { Monitor.reset with
      record := { Record.reset with shelved := (s.monitor c).record.shelved } }) && (s.table.find s.id c).isNone)) = true ↔
      ((s.image.channel c).enable = false → s.monitor c = { Monitor.reset with
          record := { Record.reset with shelved := (s.monitor c).record.shelved } } ∧ s.table.find s.id c = none) := by
    simp only [Bool.or_eq_true, Bool.and_eq_true, decide_eq_true_eq, Option.isNone_iff_eq_none]
    cases (s.image.channel c).enable <;> simp
  exact ⟨fun h c => (hparts c).mp (h c (mem_channelOrder c)), fun h c _ => (hparts c).mpr (h c)⟩

/-- With nothing held every channel is unused. -/
theorem State.unused_of_reset {s : State} (hentries : s.table.entries = []) (hmonitors : s.monitors = Vector.replicate 8 Monitor.reset)
    (c : Channel) : s.Unused c := by
  refine ⟨?_, by rw [Table.find, hentries]; rfl⟩
  have hreset : s.monitor c = Monitor.reset := by
    rw [State.monitor, hmonitors]
    exact Vector.getElem_replicate _
  rw [hreset]
  rfl

theorem State.resetBlocks_holds0 (s : State) : s.resetBlocks.Holds0 := ⟨rfl, rfl, rfl, rfl, rfl, rfl⟩

/-! ### An unused channel stays so -/

/-- Nothing happens to a channel without an own-origin entry. -/
structure State.Spares (d : Channel) (s t : State) : Prop where
  id : t.id = s.id
  find : s.table.find s.id d = none → t.table.find s.id d = none
  monitor : s.table.find s.id d = none → t.monitor d = s.monitor d

theorem State.Spares.unused {d : Channel} {s t : State} (ht : s.Spares d t) (h : s.Unused d) : t.Unused d := by
  obtain ⟨hmonitor, hfind⟩ := h
  refine ⟨?_, by rw [ht.id]; exact ht.find hfind⟩
  rw [ht.monitor hfind]
  exact hmonitor

theorem State.Spares.trans {d : Channel} {s t u : State} (hst : s.Spares d t) (htu : t.Spares d u) : s.Spares d u := by
  have hfind (h : s.table.find s.id d = none) : t.table.find t.id d = none := by rw [hst.id]; exact hst.find h
  exact ⟨htu.id.trans hst.id, fun h => hst.id ▸ htu.find (hfind h), fun h => (htu.monitor (hfind h)).trans (hst.monitor h)⟩

theorem State.Spares.refl (d : Channel) (s : State) : s.Spares d s := ⟨rfl, fun h => h, fun _ => rfl⟩

theorem State.SameOwn.spares {s t : State} (h : s.SameOwn t) (hmonitors : t.monitors = s.monitors) (d : Channel) :
    s.Spares d t :=
  ⟨h.id, fun hf => by rw [Table.find_own, h.entries, ← Table.find_own]; exact hf,
    fun _ => by rw [State.monitor, hmonitors]; rfl⟩

theorem State.LineSide.spares {s t : State} (h : s.LineSide t) (d : Channel) : s.Spares d t :=
  h.sameTables.sameOwn.spares h.monitors d

/-- What one channel does spares the others. -/
theorem State.ChannelEvent.spares {c d : Channel} {s t : State} (h : s.ChannelEvent c t) (hd : d ≠ c) : s.Spares d t := by
  cases h with
  | same => exact .refl d s
  | monitor m => exact ⟨rfl, fun hf => hf, fun _ => State.monitor_setMonitor_ne hd m s⟩
  | adopts m y cause =>
    have hid : (s.adoptFrom m c y cause).id = s.id := (State.adoptEntry_reach c _ (s.setMonitor c _)).id
    refine ⟨hid, fun hf => ?_, fun _ => ?_⟩
    · obtain ⟨_, _, hother⟩ := (s.setMonitor c (m.adopting y cause)).adoptEntry_entries c (m.adopting y cause).record
      rw [Table.find_none] at hf ⊢
      intro e he
      cases hk : e.hasKey s.id d with
      | false => rfl
      | true => exact hk.symm.trans (hf e ((hother d hd e hk).mp he))
    · rw [State.monitor, State.adoptFrom, State.staged, State.adoptEntry_monitors]
      exact State.monitor_setMonitor_ne hd _ s

/-- An ACK of an entry of this station is of another channel where this one has none. -/
theorem State.applyAck_spares (k o : StationId) (c : Channel) (q : Seq) (d : Channel) (s : State) :
    s.Spares d (s.applyAck k o c q) := by
  have hreach := s.applyAck_reach k o c q
  by_cases ho : o = s.id
  · subst ho
    obtain ⟨_, he⟩ | ⟨e, hfind, _, _, hact⟩ := s.applyAck_cases k s.id c q
    · rw [he]; exact .refl d s
    obtain ⟨hmem, horigin, hchannel⟩ := Table.find_some hfind
    have hne (hf : s.table.find s.id d = none) : d ≠ c := by
      rintro rfl
      rw [hf] at hfind
      cases hfind
    have hpassed {t : State} (hid : t.id = s.id) (hm : t.monitors = s.monitors) (hd : d ≠ c) :
        (t.passAck e.origin e.channel k).monitor d = s.monitor d := by
      rw [State.passAck_own (horigin.trans hid.symm), State.monitor_setMonitor_ne (by rw [hchannel]; exact hd)]
      rw [State.monitor, hm]; rfl
    have hkey {x : Entry} (hd : d ≠ c) (hx : x.hasKey s.id d = true) : ¬(s.id = e.origin ∧ d = e.channel) :=
      fun h => hd (h.2.trans hchannel)
    refine ⟨hreach.id, fun hf => ?_, fun hf => ?_⟩
    · have hd := hne hf
      rw [Table.find_none] at hf ⊢
      intro x hx
      cases hk : x.hasKey s.id d with
      | false => rfl
      | true =>
        have hmem : x ∈ s.table.entries := by
          obtain ⟨_, he⟩ | ⟨_, he⟩ := hact <;> rw [he] at hx
          · have hset : (s.setAcked e k).table.entries =
                replaceEntry { e with ackedBy := some k, changedRound := s.line.round } s.table.entries := by
              simp [State.setAcked, State.storeEntry]
            rw [hset] at hx
            exact (mem_replaceEntry_of_key (e := { e with ackedBy := some k, changedRound := s.line.round }) hk
              (hkey (x := x) hd hk)).mp hx
          · have hdrop : (s.removeAcked e k).table.entries = Machine.dropEntry e.origin e.channel s.table.entries := by
              unfold State.removeAcked
              simp only
              split <;> simp [State.removeEntry, State.dropEntry]
            rw [hdrop] at hx
            exact (mem_dropEntry_of_key hk (hkey (x := x) hd hk)).mp hx
        exact hk.symm.trans (hf x hmem)
    · have hd := hne hf
      obtain ⟨_, he⟩ | ⟨_, he⟩ := hact <;> rw [he]
      · exact hpassed (by simp) (by simp) hd
      · have hremoved := hpassed (t := s.removeEntry e e.level e.seq .ackedAfterClear (some k)) (by simp) (by simp) hd
        unfold State.removeAcked
        simp only
        split
        · exact hremoved
        · rw [State.monitor, State.makeStale_monitors]
          exact hremoved
  · obtain ⟨_, he⟩ | ⟨e, hfind, _, _, hact⟩ := s.applyAck_cases k o c q
    · rw [he]; exact .refl d s
    have horigin : e.origin ≠ s.id := (Table.find_some hfind).2.1 ▸ ho
    have hpass {t : State} (hid : t.id = s.id) : t.passAck e.origin e.channel k = t := if_neg (hid ▸ horigin)
    refine (State.applyAck_sameOwn ho k c q).spares ?_ d
    obtain ⟨_, he⟩ | ⟨_, he⟩ := hact <;> rw [he]
    · rw [State.setAcked, hpass (by simp)]; simp
    · unfold State.removeAcked
      rw [hpass (by simp)]
      simp only
      split <;> simp

theorem State.makeStaleAll_monitors (keys : List (StationId × Channel)) (s : State) :
    (s.makeStaleAll keys).monitors = s.monitors := by
  induction keys generalizing s with
  | nil => rfl
  | cons k ks ih => exact (ih _).trans (s.makeStale_monitors _ _)

theorem State.removeAll_monitors (es : List Entry) (r : RemovalReason) (s : State) :
    (s.removeAll es r).monitors = s.monitors := by
  induction es generalizing s with
  | nil => rfl
  | cons e es ih => exact (ih _).trans (s.removeEntry_monitors _ _ _ _ _)

theorem State.applyFrame_spares {read : BitVec 54} {o : StationId} {f : Frame} {s : State}
    (hf : judgeFrame read = .accepted o f) (ho : o ≠ s.id) (d : Channel) : s.Spares d (s.applyFrame o f) := by
  obtain hsame | ⟨c, q, he⟩ := State.applyFrame_sameOwn hf ho
  · cases f with
    | announcement kind c r =>
      refine hsame.spares ?_ d
      cases kind <;> simp [State.applyFrame]
    | ack target c q => exact State.applyAck_spares _ _ _ _ d s
    | replay g w p =>
      refine hsame.spares ?_ d
      rw [State.applyFrame, State.applyReplay_eq, State.makeStaleAll_monitors]
      exact (State.removeAll_monitors _ _ _).trans (by rw [State.noteMismatch_frame])
  · rw [he]; exact State.applyAck_spares _ _ _ _ d s

theorem State.takeCensus_spares (map : IdSet) (d : Channel) (s : State) : s.Spares d (s.takeCensus map) := by
  have hsame : s.SameOwn (s.takeCensus map) := by
    unfold State.takeCensus
    induction stationIds.filter (fun k => decide (k.val < s.image.groupSize)) generalizing s with
    | nil => exact .refl s
    | cons k ks ih => exact (s.takeSlot_sameOwn map k).trans (ih _)
  exact hsame.spares (by rw [State.takeCensus_frame]) d

/-- Every event spares a disabled channel: its stale timer stands still, and no word reaches it (R38). -/
theorem State.event_unused {c : Instr} {f : State → State} (hf : eventOf c = some f) {s : State} {d : Channel}
    (h : s.Unused d) : (f s).Unused d := by
  have hline {t u : State} (ht : t.LineSide u) : t.Spares d u := ht.spares d
  cases hc : reachesTable c with
  | false => exact (hline (event_lineSide hf hc s)).unused h
  | true =>
    refine State.Spares.unused ?_ h
    cases c with
    | staleTimerExpiry c =>
      cases hf
      obtain he | ⟨_, htimer, he⟩ := State.staleExpiry_channelEvent c s
      · rw [he]; exact .refl d s
      · refine he.spares ?_
        rintro rfl
        rw [h.1] at htimer
        exact htimer rfl
    | censusEnd slots first =>
      cases hf
      have hpast (n : Nat) : s.Spares d (s.pastCensus slots n) := hline (State.lineSide_of _ _ _ _ _ _ _ .refl)
      obtain ⟨_, he⟩ | ⟨_, _, ⟨_, _, ⟨_, he⟩ | ⟨_, he⟩⟩ | ⟨_, he⟩⟩ := s.finishCensus_cases slots first <;> rw [he]
      · exact .refl d s
      · exact ((hpast _).trans (State.takeCensus_spares _ d _)).trans (hline (State.enterQuiet_lineSide _ _ _))
      · exact ((hpast _).trans (hline (State.enterQuiet_lineSide _ _ _))).trans (State.takeCensus_spares _ d _)
      · exact ((hpast _).trans (State.takeCensus_spares _ d _)).trans (hline (State.countListen_lineSide _))
    | frameSentWhole =>
      cases hf
      have hsent (f : Flight) : s.Spares d (s.frameSent f) := hline (State.lineSide_of _ _ _ _ _ _ _ .refl)
      obtain ⟨_, he⟩ | ⟨f, _, ⟨_, o, c, q, _, he⟩ | ⟨_, he⟩⟩ := s.sendWhole_cases <;> rw [he]
      · exact .refl d s
      · exact (hsent f).trans (State.applyAck_spares _ o c q d _)
      · exact hsent f
    | frameJudged read =>
      cases hf
      have hread (j : Judgement) : s.Spares d (s.frameRead read j) := hline (s.frameRead_lineSide read j)
      obtain ⟨_, he⟩ | ⟨_, ⟨_, he⟩ | ⟨_, he⟩ | ⟨o, f, hj, ⟨_, _, he⟩ | ⟨_, _, he⟩ | ⟨ho, he⟩⟩⟩ := s.judge_cases read <;>
        rw [he]
      · exact .refl d s
      · exact (hread .rejected).trans (hline (u := State.crcCounted _) (State.lineSide_of _ _ _ _ _ _ _ .refl))
      · exact (hread .rejected).trans (hline (u := State.malformedCounted _) (State.lineSide_of _ _ _ _ _ _ _ .refl))
      · exact hread .accepted
      · exact (hread .accepted).trans (hline (State.enterQuiet_lineSide _ _ _))
      · exact (hread .accepted).trans (State.applyFrame_spares (s := s.frameRead read .accepted) hj ho d)
    | _ => exact Bool.noConfusion hc

/-! ### SETUP -/

theorem State.flightAs_setup {s : State} (h : s.station = .setup) (r : Role) : s.flightAs r = none := by
  cases hf : s.flightAs r with
  | none => rfl
  | some f =>
    obtain ⟨_, hin, _⟩ := State.flightAs_some hf
    rw [h] at hin
    cases hin

theorem State.follows_setup {s : State} (h : s.station = .setup) : s.follows = false := by rw [State.follows, h]; rfl

/-- In SETUP no event but a round timer's end does anything (R1). -/
theorem State.event_setup {c : Instr} {f : State → State} (hf : eventOf c = some f) {s : State} (h : s.station = .setup) :
    f s = s ∨ f s = s.roundExpiry := by
  have hflight := State.flightAs_setup h
  have hfollows := State.follows_setup h
  cases c with
  | roundTimerExpiry => cases hf; exact .inr rfl
  | staleTimerExpiry c => cases hf; exact .inl (by simp [State.staleExpiry, h, StationState.classifies])
  | silenceTimerExpiry => cases hf; exact .inl (by simp [State.loneStart, h])
  | markRecognised => cases hf; exact .inl (by simp [State.recogniseMark, h, StationState.observes])
  | markUnrecognised => cases hf; exact .inl (by simp [State.missOwnMark, h, StationState.participates])
  | markTrailingEdge =>
    cases hf
    refine .inl ?_
    unfold State.trailingEdge
    split <;> simp [h, StationState.observes]
  | censusEnd slots first => cases hf; exact .inl (by simp [State.finishCensus, hfollows])
  | sweepStart => cases hf; exact .inl (by simp [State.startSweep, hfollows])
  | sweepEnd read =>
    cases hf
    refine .inl ?_
    unfold State.finishSweep
    split <;> simp [h, StationState.observes]
  | windowStart driven => cases hf; exact .inl (by simp [State.startWindow, State.windowLeft, hfollows])
  | contestLost bit => cases hf; exact .inl (by simp [State.loseContest, hflight])
  | lineFaultAbandon bit first => cases hf; exact .inl (by simp [State.lineFault, hflight])
  | keyWon => cases hf; exact .inl (by simp [State.winKey, hflight])
  | readBackMismatch bit first => cases hf; exact .inl (by simp [State.readBackMismatch, hflight])
  | frameSentWhole => cases hf; exact .inl (by simp [State.sendWhole, hflight])
  | frameJudged read => cases hf; exact .inl (by simp [State.judge, State.readsFrame, hfollows])
  | receiptSlot => cases hf; exact .inl (by simp [State.driveReceipt, hfollows])
  | receiptFieldEnd slots => cases hf; exact .inl (by simp [State.finishReceipts, hfollows])
  | roundEnd => cases hf; exact .inl (by simp [State.finishRound, hfollows])
  | lineStuck => cases hf; exact .inl (by simp [State.findStuck, h, StationState.observes])
  | lineRestored => cases hf; exact .inl (by simp [State.restoreLine, h])
  | _ => exact absurd hf (Option.some_ne_none _).symm

/-- A round timer's end changes the line alone. -/
theorem State.roundExpiry_line (s : State) : s.roundExpiry = { s with line := s.roundExpiry.line } := by
  unfold State.roundExpiry
  simp only
  split_ifs <;> rfl

/-- The station state of an event's outcome is the one before, or one that is not SETUP. -/
def State.NotToSetup (s t : State) : Prop := t.station = s.station ∨ t.station ≠ .setup

theorem State.NotToSetup.trans {s t u : State} (hst : s.NotToSetup t) (htu : t.NotToSetup u) : s.NotToSetup u := by
  rcases htu with h | h
  · unfold State.NotToSetup; rw [h]; exact hst
  · exact .inr h

theorem State.takeOutcome_notToSetup (o : WindowOutcome) (s : State) : s.NotToSetup (s.takeOutcome o) :=
  (s.takeOutcome_station o).imp_right fun h => by rw [h]; decide

theorem State.abandon_notToSetup (first : TakenFirst) (s : State) : s.NotToSetup (s.abandon first) := by
  cases first <;> simp only [State.abandon] <;> split
  · exact .inr nofun
  · exact s.takeOutcome_notToSetup .abandoned
  · exact .inr nofun
  · exact s.countAbandon.takeOutcome_notToSetup .abandoned

/-- No event leads to SETUP. -/
theorem State.event_notToSetup {c : Instr} {f : State → State} (hf : eventOf c = some f) (s : State) : s.NotToSetup (f s) := by
  have hcounted (t : State) : t.NotToSetup t.countListen := by
    unfold State.countListen
    simp only
    split_ifs
    · exact .inr nofun
    · exact .inl rfl
    · exact .inl rfl
  cases c with
  | roundTimerExpiry => cases hf; exact .inl (by rw [State.roundExpiry_line])
  | staleTimerExpiry c => cases hf; exact .inl (s.staleExpiry_calm c).reach.station
  | silenceTimerExpiry =>
    cases hf
    unfold State.loneStart
    split
    · exact .inr nofun
    · exact .inl rfl
  | markRecognised => cases hf; unfold State.recogniseMark; split <;> exact .inl rfl
  | markUnrecognised => cases hf; unfold State.missOwnMark; split <;> exact .inl rfl
  | markTrailingEdge => cases hf; unfold State.trailingEdge; split <;> (try split) <;> exact .inl rfl
  | censusEnd slots first =>
    cases hf
    have htaken (t : State) (m : IdSet) : t.NotToSetup (t.takeCensus m) := .inl (by rw [State.takeCensus_frame])
    obtain ⟨_, he⟩ | ⟨_, _, ⟨_, _, ⟨_, he⟩ | ⟨_, he⟩⟩ | ⟨_, he⟩⟩ := s.finishCensus_cases slots first <;> rw [he]
    · exact .inl rfl
    · exact .inr nofun
    · exact State.NotToSetup.trans (.inr (by rw [State.enterQuiet_station]; decide)) (htaken ((s.pastCensus slots (s.listenCount + 1)).enterQuiet .idClash .lost) _)
    · exact (htaken (s.pastCensus slots s.listenCount) _).trans (hcounted _)
  | sweepStart => cases hf; unfold State.startSweep; split <;> exact .inl rfl
  | sweepEnd read =>
    cases hf
    unfold State.finishSweep State.takeSweep
    split <;> (try split) <;> (try split) <;> exact .inl rfl
  | windowStart driven =>
    cases hf
    obtain ⟨_, he⟩ | ⟨_, _, ⟨_, he⟩ | ⟨e, _, he⟩⟩ := s.startWindow_cases driven <;> rw [he] <;> exact .inl rfl
  | contestLost bit =>
    cases hf
    unfold State.loseContest
    split
    · exact .inl rfl
    · split
      · exact s.takeOutcome_notToSetup .lost
      · exact .inl rfl
  | lineFaultAbandon bit first =>
    cases hf
    unfold State.lineFault
    split
    · exact .inl rfl
    · split_ifs
      · exact .inl rfl
      · exact s.abandon_notToSetup first
      · exact s.abandon_notToSetup first
      · exact .inl rfl
  | keyWon => cases hf; unfold State.winKey; split <;> (try split) <;> exact .inl rfl
  | readBackMismatch bit first =>
    cases hf
    unfold State.readBackMismatch
    split
    · exact .inl rfl
    · split
      · exact s.abandon_notToSetup first
      · exact .inl rfl
  | frameSentWhole =>
    cases hf
    obtain ⟨_, he⟩ | ⟨f, _, ⟨_, o, c, q, _, he⟩ | ⟨_, he⟩⟩ := s.sendWhole_cases <;> rw [he]
    · exact .inl rfl
    · exact .inl (State.applyAck_reach _ o c q _).station
    · exact .inl rfl
  | frameJudged read =>
    cases hf
    obtain ⟨_, he⟩ | ⟨_, ⟨_, he⟩ | ⟨_, he⟩ | ⟨o, f, _, ⟨_, _, he⟩ | ⟨_, _, he⟩ | ⟨_, he⟩⟩⟩ := s.judge_cases read <;> rw [he]
    · exact .inl rfl
    · exact .inl rfl
    · exact .inl rfl
    · exact .inl rfl
    · exact .inr nofun
    · exact .inl (State.applyFrame_reach o f _).station
  | receiptSlot => cases hf; unfold State.driveReceipt; split <;> exact .inl rfl
  | receiptFieldEnd slots =>
    cases hf
    unfold State.finishReceipts
    split_ifs
    · exact s.takeOutcome_notToSetup _
    · exact .inl rfl
    · exact .inl rfl
    · exact .inl rfl
  | roundEnd => cases hf; unfold State.finishRound; split <;> exact .inl rfl
  | lineStuck =>
    cases hf
    obtain ⟨_, he⟩ | ⟨_, _, he⟩ := s.findStuck_cases <;> rw [he]
    · exact .inl rfl
    · refine .inr ?_
      unfold State.enterStuck
      split
      · rename_i hquiet
        exact fun hs => absurd (hquiet.symm.trans hs) (by decide)
      · exact fun hs => StationState.noConfusion hs
  | lineRestored =>
    cases hf
    unfold State.restoreLine
    simp only
    split_ifs
    · exact .inr nofun
    · exact .inl rfl
    · exact .inl rfl
  | _ => exact absurd hf (Option.some_ne_none _).symm

/-! ### The two together -/

/-- SETUP holds nothing, and a disabled channel is unused. -/
structure State.SetupOk (s : State) : Prop where
  setup : s.station = .setup → s.Holds0
  disabled : ∀ c, (s.image.channel c).enable = false → s.Unused c

theorem State.setupOk_iff {s : State} (hrst : s.rst = false) : (s.setupSound && s.disabledSound) = true ↔ s.SetupOk := by
  rw [Bool.and_eq_true, State.setupSound_iff hrst, State.disabledSound_iff]
  exact ⟨fun h => ⟨h.1, h.2⟩, fun h => ⟨h.setup, h.disabled⟩⟩

/-- Outside SETUP it is enough to spare the disabled channels. -/
theorem State.SetupOk.spared {s t : State} (h : s.SetupOk) (himage : t.image = s.image)
    (hdisabled : ∀ d, (s.image.channel d).enable = false → s.Unused d → t.Unused d)
    (hstation : t.station ≠ .setup) : t.SetupOk :=
  ⟨fun hs => absurd hs hstation, fun d hd => by rw [himage] at hd; exact hdisabled d hd (h.disabled d hd)⟩

theorem State.event_setupOk {c : Instr} {f : State → State} (hf : eventOf c = some f) {s : State} (h : s.SetupOk) :
    (f s).SetupOk := by
  by_cases hsetup : s.station = .setup
  · obtain he | he := State.event_setup hf hsetup <;> rw [he]
    · exact h
    · rw [State.roundExpiry_line]
      obtain ⟨hentries, hqueue, hrecords, hgap, hmonitors, hroster⟩ := h.setup hsetup
      exact ⟨fun _ => ⟨hentries, hqueue, hrecords, hgap, hmonitors, hroster⟩, h.disabled⟩
  · obtain ⟨_, himage, _⟩ := event_goesOn hf s
    refine h.spared himage (fun d _ hd => State.event_unused hf hd) fun hs => ?_
    rcases State.event_notToSetup hf s with hst | hst
    · exact hsetup (hst ▸ hs)
    · exact hst hs

theorem State.offerWord_setupOk {s : State} (h : s.SetupOk) (w : BitVec 16) : (s.offerWord w).SetupOk := by
  obtain he | ⟨hclassifies, henabled, he⟩ := State.offerWord_channelEvent w s
  · rw [he]; exact h
  · have hreach := (s.offerWord_calm w).reach
    refine h.spared hreach.image (fun d hd hu => ?_) ?_
    · refine (he.spares ?_).unused hu
      rintro rfl
      rw [hd] at henabled
      cases henabled
    · rw [hreach.station]
      intro hs
      rw [hs] at hclassifies
      cases hclassifies

/-- Setting the shelved flag of an unused channel leaves it unused. -/
theorem State.setShelved_unused {s : State} {d : Channel} (h : s.Unused d) (c : Channel) (flag : Bool) :
    (s.setShelved c flag).Unused d := by
  obtain ⟨_, he⟩ | ⟨_, _, he⟩ | ⟨e, _, hfind, he⟩ := s.setShelved_cases c flag <;> rw [he]
  · exact h
  · by_cases hc : c = d
    · subst hc
      refine ⟨?_, h.2⟩
      rw [State.monitor_setMonitor_self, h.1]
    · refine State.Spares.unused ?_ h
      exact ⟨rfl, fun hf => hf, fun _ => State.monitor_setMonitor_ne (Ne.symm hc) _ s⟩
  · obtain ⟨_, horigin, hchannel⟩ := Table.find_some hfind
    have hc : c ≠ d := by
      rintro rfl
      rw [h.2] at hfind
      cases hfind
    refine State.Spares.unused ⟨by simp [State.staged], fun hf => ?_, fun _ => ?_⟩ h
    · rw [Table.find_none] at hf ⊢
      intro x hx
      cases hk : x.hasKey s.id d with
      | false => rfl
      | true =>
        have hx' : x ∈ replaceEntry (e.shelving ((s.monitor c).shelving flag).record s.line.round) s.table.entries := by
          simpa [State.staged, State.changeEntry, State.storeEntry] using hx
        have hmem := (mem_replaceEntry_of_key (e := e.shelving ((s.monitor c).shelving flag).record s.line.round) hk
          fun hkey => hc (hchannel.symm.trans hkey.2.symm)).mp hx'
        exact hk.symm.trans (hf x hmem)
    · rw [State.monitor, State.staged, State.makeStale_monitors, State.changeEntry_monitors]
      exact State.monitor_setMonitor_ne (Ne.symm hc) _ s

/-- Releasing records from an empty feed leaves it empty. -/
theorem Feed.release_empty {f : Feed} (hrecords : f.records = []) (hgap : f.gap = 0) (w : Nat) (r : Counter) (n : Nat) :
    (f.release w r n).records = [] ∧ (f.release w r n).gap = 0 := by
  simp [Feed.release, Feed.drop, Feed.formGap, Feed.judge, hrecords, hgap]

theorem State.startUp_setupOk {s : State} (h : s.SetupOk) : s.startUp.SetupOk := by
  have himage : s.startUp.image = s.image := by rw [State.startUp_frame]; rfl
  have hstation : s.startUp.station = .listen := by rw [State.startUp_frame]; rfl
  refine h.spared himage (fun d hd hu => ?_) (by rw [hstation]; decide)
  have hsame := s.startUp_sameTables.sameOwn
  refine State.Spares.unused ⟨hsame.id, fun hf => ?_, fun _ => ?_⟩ hu
  · rw [Table.find_own, hsame.entries, ← Table.find_own]
    exact hf
  · have hmonitor : s.startUp.monitor d = (channelOrder.foldl State.startTimer s).monitor d := by
      rw [State.monitor, State.monitor, State.startUp_frame, State.enterListen]
    rw [hmonitor, State.monitor_startTimers, if_neg (by rw [hd]; decide)]

theorem State.Served.setupOk {s t : State} (ht : s.Served t) (h : s.SetupOk) : t.SetupOk := by
  have hkept {t : State} (himage : t.image = s.image) (hid : t.id = s.id) (htable : t.table = s.table)
      (hmonitors : t.monitors = s.monitors) (hstation : t.station ≠ .setup) : t.SetupOk := by
    refine h.spared himage (fun d _ hu => State.Spares.unused ⟨hid, fun hf => htable ▸ hf, fun _ => ?_⟩ hu) hstation
    rw [State.monitor, hmonitors]
    rfl
  cases ht with
  | same => exact h
  | stored i v hsetup =>
    obtain ⟨hentries, hqueue, hrecords, hgap, hmonitors, hroster⟩ := h.setup hsetup
    refine ⟨fun _ => ⟨hentries, hqueue, ?_, ?_, hmonitors, hroster⟩, fun c _ => State.unused_of_reset hentries hmonitors c⟩
    · unfold State.storeItem; simp only; split <;> exact hrecords
    · unfold State.storeItem; simp only; split <;> exact hgap
  | started => exact State.startUp_setupOk h
  | restarted => exact ⟨fun _ => ⟨rfl, rfl, rfl, rfl, rfl, rfl⟩, fun c _ => State.unused_of_reset rfl rfl c⟩
  | quieted hsetup =>
    have hside := State.enterQuiet_lineSide .host .lost s
    exact hkept hside.goesOn.2.1 hside.goesOn.1 hside.table hside.monitors nofun
  | resumed => exact hkept rfl rfl rfl rfl nofun
  | resumedStuck => exact hkept rfl rfl rfl rfl nofun
  | acknowledging e slot hsetup => exact hkept rfl rfl rfl rfl hsetup
  | shelved c flag hsetup =>
    have hreach := s.setShelved_reach c flag
    exact h.spared hreach.image (fun d _ hu => State.setShelved_unused hu c flag) (hreach.station ▸ hsetup)
  | purged o hsetup hown =>
    have hreach := s.purge_reach o
    refine h.spared hreach.image (fun d _ hu => ?_) (hreach.station ▸ hsetup)
    refine ((State.purge_sameOwn hown).spares ?_ d).unused hu
    exact (State.makeStaleAll_monitors _ _).trans (State.removeAll_monitors _ _ _)
  | released n =>
    refine ⟨fun hsetup => ?_, h.disabled⟩
    obtain ⟨hentries, hqueue, hrecords, hgap, hmonitors, hroster⟩ := h.setup hsetup
    obtain ⟨hrecords', hgap'⟩ := Feed.release_empty hrecords hgap s.image.watermark s.line.round n
    exact ⟨hentries, hqueue, hrecords', hgap', hmonitors, hroster⟩
  | cleared =>
    refine ⟨fun hsetup => ?_, h.disabled⟩
    obtain ⟨hentries, hqueue, hrecords, hgap, hmonitors, hroster⟩ := h.setup hsetup
    exact ⟨hentries, hqueue, hrecords, hgap, hmonitors, hroster⟩

/-- A bit time moves no stopped timer; in SETUP all are stopped. -/
theorem State.tick_setupOk {s : State} (hrst : s.rst = false) (h : s.SetupOk) : s.tick.SetupOk := by
  have hmonitor (c : Channel) (hu : s.Unused c) : s.tick.monitor c = s.monitor c := by
    rw [State.tick_eq hrst]
    refine (s.monitor_tickMonitors c).trans ?_
    rw [hu.1]
    rfl
  have hframe : s.tick.station = s.station ∧ s.tick.image = s.image ∧ s.tick.table = s.table ∧ s.tick.queue = s.queue ∧
      s.tick.feed = s.feed ∧ s.tick.roster = s.roster ∧ s.tick.id = s.id := by
    rw [State.tick_eq hrst]
    exact ⟨rfl, rfl, rfl, rfl, rfl, rfl, rfl⟩
  obtain ⟨hstation, himage, htable, hqueue, hfeed, hroster, hid⟩ := hframe
  refine ⟨fun hsetup => ?_, fun c hc => ?_⟩
  · have h0 := h.setup (hstation ▸ hsetup)
    refine ⟨by rw [htable]; exact h0.entries, by rw [hqueue]; exact h0.queue, by rw [hfeed]; exact h0.records,
      by rw [hfeed]; exact h0.gap, ?_, by rw [hroster]; exact h0.roster⟩
    refine Vector.ext fun i hi => ?_
    have hunused := State.unused_of_reset h0.entries h0.monitors ⟨i, hi⟩
    exact (hmonitor ⟨i, hi⟩ hunused).trans (congrArg (fun v => v[i]) h0.monitors)
  · rw [himage] at hc
    have hu := h.disabled c hc
    exact State.Spares.unused ⟨hid, fun hf => htable ▸ hf, fun _ => hmonitor c hu⟩ hu

/-- Settles O12: in SETUP nothing happens but requests to the image and the feed; elsewhere a disabled channel has no entry to
change, no timer that runs and takes no word. -/
theorem setupHoldsNothing : Obligations.SetupHoldsNothing := by
  unfold Obligations.SetupHoldsNothing
  intro s t hs hstep
  refine step_keeps (P := fun s => (s.setupSound && s.disabledSound) = true) (fun s _ _ _ _ _ _ h => h) (fun s straps => ?_)
    (fun s h => ?_) (fun s t hrst h ht => ?_) (fun w s hrst h => ?_) (fun c f s hf hrst h => ?_) (fun s hrst h => ?_) hs hstep
  · exact (State.setupOk_iff rfl).mpr ⟨fun _ => ⟨rfl, rfl, rfl, rfl, rfl, rfl⟩, fun c _ => State.unused_of_reset rfl rfl c⟩
  · obtain ⟨_, hdisabled⟩ := Bool.and_eq_true_iff.mp h
    exact Bool.and_eq_true_iff.mpr ⟨rfl, hdisabled⟩
  · exact (State.setupOk_iff (ht.rst.trans hrst)).mpr (ht.setupOk ((State.setupOk_iff hrst).mp h))
  · have hreach := (s.offerWord_calm w).reach
    exact (State.setupOk_iff (hreach.rst.trans hrst)).mpr (State.offerWord_setupOk ((State.setupOk_iff hrst).mp h) w)
  · have hoff := (event_goesOn hf s).2.2.1.trans hrst
    exact (State.setupOk_iff hoff).mpr (State.event_setupOk hf ((State.setupOk_iff hrst).mp h))
  · have hoff : s.tick.rst = false := by rw [State.tick_eq hrst]; exact hrst
    exact (State.setupOk_iff hoff).mpr (State.tick_setupOk hrst ((State.setupOk_iff hrst).mp h))

end Sys2Proof.Machine
end

section
/-! PROOFS. Every command answers a next state and leaves the waiting commands alone; the id and the sealed image stay; the resets: O1,
O2, O13, O14, O15. -/

namespace Sys2Proof.Machine

/-- Settles O1: a step with a command waiting is that command. -/
theorem stepRunsFrontCommand : Obligations.StepRunsFrontCommand := by
  unfold Obligations.StepRunsFrontCommand
  intro c s
  rw [step_front (c := c) (rest := s.pending) rfl]

/-! ### The waiting commands -/

theorem State.TableReach.pending {s t : State} (h : s.TableReach t) : t.pending = s.pending := by rw [h.eq]

theorem State.Served.pending {s t : State} (ht : s.Served t) : t.pending = s.pending := by
  cases ht with
  | quieted => rw [State.enterQuiet_frame]
  | started => rw [State.startUp_frame]; rfl
  | shelved c flag => exact (s.setShelved_reach c flag).pending
  | purged o => exact (s.purge_reach o).pending
  | _ => rfl

theorem State.offerWord_pending (w : BitVec 16) (s : State) : (s.offerWord w).pending = s.pending :=
  (s.offerWord_calm w).reach.pending

theorem State.takeOutcome_pending (o : WindowOutcome) (s : State) : (s.takeOutcome o).pending = s.pending := by
  rw [State.takeOutcome_frame]

theorem State.abandon_pending (first : TakenFirst) (s : State) : (s.abandon first).pending = s.pending := by
  rw [State.abandon_frame]

theorem State.finishCensus_pending (slots : IdSet) (first : TakenFirst) (s : State) :
    (s.finishCensus slots first).pending = s.pending := by
  have hcounted (t : State) : t.countListen.pending = t.pending := by rw [State.countListen_frame]
  obtain ⟨_, he⟩ | ⟨_, _, ⟨_, _, ⟨_, he⟩ | ⟨_, he⟩⟩ | ⟨_, he⟩⟩ := s.finishCensus_cases slots first <;> rw [he]
  · rw [State.enterQuiet_frame, State.takeCensus_frame]; rfl
  · rw [State.takeCensus_frame, State.enterQuiet_frame]; rfl
  · rw [hcounted, State.takeCensus_frame]; rfl

/-- No event takes a command from the queue or adds one. -/
theorem State.event_pending {c : Instr} {f : State → State} (hf : eventOf c = some f) (s : State) :
    (f s).pending = s.pending := by
  cases c with
  | roundTimerExpiry => cases hf; rw [State.roundExpiry_line]
  | staleTimerExpiry c => cases hf; exact (s.staleExpiry_calm c).reach.pending
  | silenceTimerExpiry => cases hf; unfold State.loneStart; split <;> rfl
  | markRecognised => cases hf; unfold State.recogniseMark; split <;> rfl
  | markUnrecognised => cases hf; unfold State.missOwnMark; split <;> rfl
  | markTrailingEdge => cases hf; unfold State.trailingEdge; split <;> (try split) <;> rfl
  | censusEnd slots first => cases hf; exact s.finishCensus_pending slots first
  | sweepStart => cases hf; unfold State.startSweep; split <;> rfl
  | sweepEnd read =>
    cases hf
    unfold State.finishSweep State.takeSweep
    split <;> (try split) <;> (try split) <;> rfl
  | windowStart driven =>
    cases hf
    obtain ⟨_, he⟩ | ⟨_, _, ⟨_, he⟩ | ⟨e, _, he⟩⟩ := s.startWindow_cases driven <;> rw [he]
  | contestLost bit =>
    cases hf
    unfold State.loseContest
    split
    · rfl
    · split
      · exact s.takeOutcome_pending .lost
      · rfl
  | lineFaultAbandon bit first =>
    cases hf
    unfold State.lineFault
    split
    · rfl
    · split_ifs
      · rfl
      · exact s.abandon_pending first
      · exact s.abandon_pending first
      · rfl
  | keyWon => cases hf; unfold State.winKey; split <;> (try split) <;> rfl
  | readBackMismatch bit first =>
    cases hf
    unfold State.readBackMismatch
    split
    · rfl
    · split
      · exact s.abandon_pending first
      · rfl
  | frameSentWhole =>
    cases hf
    obtain ⟨_, he⟩ | ⟨f, _, ⟨_, o, c, q, _, he⟩ | ⟨_, he⟩⟩ := s.sendWhole_cases <;> rw [he]
    · exact (State.applyAck_reach _ o c q _).pending
    · rfl
  | frameJudged read =>
    cases hf
    obtain ⟨_, he⟩ | ⟨_, ⟨_, he⟩ | ⟨_, he⟩ | ⟨o, f, _, ⟨_, _, he⟩ | ⟨_, _, he⟩ | ⟨_, he⟩⟩⟩ := s.judge_cases read <;> rw [he]
    · rfl
    · rfl
    · rfl
    · rw [State.enterQuiet_frame]; rfl
    · exact (State.applyFrame_reach o f _).pending
  | receiptSlot => cases hf; unfold State.driveReceipt; split <;> rfl
  | receiptFieldEnd slots =>
    cases hf
    unfold State.finishReceipts
    split_ifs
    · exact s.takeOutcome_pending _
    · rfl
    · rfl
    · rfl
  | roundEnd => cases hf; unfold State.finishRound; split <;> rfl
  | lineStuck =>
    cases hf
    obtain ⟨_, he⟩ | ⟨_, _, he⟩ := s.findStuck_cases <;> rw [he]
    have hleft : (s.stuckFound.leaveGroup .lost).pending = s.pending := by rw [State.leaveGroup_frame]; rfl
    unfold State.enterStuck
    split <;> exact hleft
  | lineRestored =>
    cases hf
    unfold State.restoreLine
    simp only
    split_ifs <;> rfl
  | _ => exact absurd hf (Option.some_ne_none _).symm

/-! ### The bits of a transaction -/

/-- A port that has its answer, or takes no bits, takes none until its transaction ends (R170, R174). -/
theorem State.clockBits_done {s : State} (h : ¬s.port.phase.taking) (bits : List Bool) :
    ∃ p, s.clockBits bits = { s with port := p } := by
  induction bits generalizing s with
  | nil => exact ⟨s.port, rfl⟩
  | cons bit bits ih =>
    have hbit : ∃ p, s.clockBit bit = { s with port := p } ∧ ¬p.phase.taking := by
      unfold State.clockBit
      split
      · rename_i hp; rw [hp] at h; exact absurd trivial h
      · rename_i hp; rw [hp] at h; exact absurd trivial h
      · refine ⟨_, rfl, ?_⟩
        unfold Port.sendBit
        simp only
        split <;> exact fun h => h
      all_goals exact ⟨s.port, rfl, h⟩
    obtain ⟨p, hp, hdone⟩ := hbit
    obtain ⟨q, hq⟩ := ih (s := { s with port := p }) hdone
    refine ⟨q, ?_⟩
    rw [State.clockBits, List.foldl_cons, hp]
    exact hq

/-- The bits of one transaction hold one request at most (R172, R174). -/
theorem State.clockBits_cases (s : State) (bits : List Bool) :
    ∃ p q t, ({ s with port := p } : State).Served t ∧ s.clockBits bits = { t with port := q } := by
  induction bits generalizing s with
  | nil => exact ⟨s.port, s.port, s, .same, rfl⟩
  | cons bit bits ih =>
    rw [State.clockBits, List.foldl_cons]
    obtain ⟨p, hp⟩ | ⟨p, c, args, q, hphase, hp⟩ := s.clockBit_cases bit <;> rw [hp]
    · exact ih { s with port := p }
    · obtain ⟨q', hq⟩ := State.clockBits_done (s := { (serve c args { s with port := p }).state with port := q })
        (by rw [hphase]; exact fun h => h) bits
      exact ⟨p, q', _, serve_served c args _, hq⟩

theorem State.clockRequest_eq_clockBits {s : State} (hrst : s.rst = false) (bytes : List Byte) :
    s.clockRequest bytes = s.clockBits (bytes.flatMap msbBits) := by
  rw [State.clockRequest, State.unlessRst_off _ hrst]
  simp only [State.clockBits, List.foldl_flatMap]
  rfl

/-! ### The commands one by one -/

/-- What holds before a command leads to what holds after it: through a reset, the assertion of RST, the bits of a transaction, a word
or an event, or by the inputs and the port alone. -/
theorem exec_leads {P Q : State → Prop} (c : Instr) (hdone : ∀ s : State, P s → Q s)
    (hinputs : ∀ (s : State) (scs cfs : Bool) (port : Port) (a : Assembler) (n : Counter), P s →
      P { s with scsPin := scs, cfsPin := cfs, port := port, assembler := a, framingErrors := n })
    (hport : ∀ (s : State) (port : Port), Q s → Q { s with port := port })
    (hreset : ∀ (s : State) (straps : BitVec 5), (c = .rstReleased straps ∨ ∃ scs cfs, c = .powerOn straps scs cfs) → P s →
      Q (s.resetAll straps))
    (hrst : ∀ s : State, P s → Q s.assertRst) (hbits : ∀ (s : State) (bits : List Bool), s.rst = false → P s → Q (s.clockBits bits))
    (hword : ∀ (w : BitVec 16) (s : State), P s → Q (s.offerWord w))
    (hevent : ∀ (f : State → State) (s : State), eventOf c = some f → P s → Q (f s)) {s : State} (h : P s) :
    ∃ t, exec c s = .next t ∧ Q t := by
  cases hhost : isHostRequest c with
  | true =>
    refine ⟨_, exec_hostRequest hhost s, ?_⟩
    cases hoff : s.rst with
    | true => rw [State.clockRequest, State.unlessRst_on _ hoff]; exact hdone s h
    | false => rw [State.clockRequest_eq_clockBits hoff]; exact hbits s _ hoff h
  | false =>
    cases hevt : eventOf c with
    | some f => exact ⟨_, exec_event hevt s, State.unlessRst_cases (hdone s h) fun _ => hevent f s hevt h⟩
    | none =>
      cases c with
      | powerOn straps scs cfs =>
        exact ⟨_, exec_powerOn straps scs cfs s, hreset _ straps (.inr ⟨scs, cfs, rfl⟩) (hinputs s _ _ _ _ _ h)⟩
      | rstReleased straps => exact ⟨_, exec_rstReleased straps s, hreset s straps (.inl rfl) h⟩
      | rstAsserted => exact ⟨_, exec_rstAsserted s, State.unlessRst_cases (hdone s h) fun _ => hrst s h⟩
      | scsAsserted =>
        refine ⟨_, exec_scsAsserted s, State.unlessRst_cases (hdone _ (hinputs s _ _ _ _ _ h)) fun _ => ?_⟩
        simp only
        split <;> exact hdone _ (hinputs s _ _ _ _ _ h)
      | scsReleased bits =>
        refine ⟨_, exec_scsReleased bits s, State.unlessRst_cases (hdone _ (hinputs s _ _ _ _ _ h)) fun hoff => ?_⟩
        exact hport _ _ (hbits _ bits hoff (hinputs s _ _ _ _ _ h))
      | cfsAsserted =>
        refine ⟨_, exec_cfsAsserted s, State.unlessRst_cases (hdone _ (hinputs s _ _ _ _ _ h)) fun _ => ?_⟩
        unfold State.openFrame
        split <;> exact hdone _ (hinputs s _ _ _ _ _ h)
      | wordClose bits =>
        refine ⟨_, exec_wordClose bits s, State.unlessRst_cases (hdone _ (hinputs s _ _ _ _ _ h)) fun _ => ?_⟩
        obtain ⟨a, n, hc | ⟨w, hc⟩⟩ := State.closeWord_cases bits { s with cfsPin := false } <;> rw [hc]
        · exact hdone _ (hinputs s _ _ _ _ _ h)
        · exact hword w _ (hinputs s _ _ _ _ _ h)
      | _ => first | exact Bool.noConfusion hhost | exact absurd hevt (Option.some_ne_none _)

/-- Settles O2: every arm of the dispatch answers a next state, and none touches the queue of commands. -/
theorem commandsAnswerNextAndKeepQueue : Obligations.CommandsAnswerNextAndKeepQueue := by
  unfold Obligations.CommandsAnswerNextAndKeepQueue
  intro c s
  refine exec_leads (P := fun t => t.pending = s.pending) c (fun _ h => h) (fun _ _ _ _ _ _ h => h) (fun _ _ h => h)
    (fun _ _ _ h => h) (fun _ h => h) (fun t bits _ h => ?_) (fun w t h => (t.offerWord_pending w).trans h)
    (fun _ t hf h => (State.event_pending hf t).trans h) rfl
  obtain ⟨p, q, u, hu, he⟩ := t.clockBits_cases bits
  rw [he]
  exact hu.pending.trans h

/-! ### The resets -/

/-- Settles O13: the reset state is one state, in which each invariant is evaluated. -/
theorem resetIsSound : Obligations.ResetIsSound := by
  unfold Obligations.ResetIsSound
  decide

/-- Settles O15: both resets write every block's reset value. -/
theorem resetsHoldTheResetValues : Obligations.ResetsHoldTheResetValues := by
  unfold Obligations.ResetsHoldTheResetValues
  intro straps scs cfs s
  exact ⟨rfl, rfl⟩

/-! ### The id and the sealed image -/

/-- A request keeps the id, and changes the image in SETUP alone (R4, R6). -/
theorem State.Served.idAndImage {s t : State} (ht : s.Served t) : t.id = s.id ∧ (s.station ≠ .setup → t.image = s.image) := by
  cases ht with
  | stored i v hsetup => exact ⟨rfl, fun h => absurd hsetup h⟩
  | quieted => rw [State.enterQuiet_frame]; exact ⟨rfl, fun _ => rfl⟩
  | started => rw [State.startUp_frame]; exact ⟨rfl, fun _ => rfl⟩
  | shelved c flag => exact ⟨(s.setShelved_reach c flag).id, fun _ => (s.setShelved_reach c flag).image⟩
  | purged o => exact ⟨(s.purge_reach o).id, fun _ => (s.purge_reach o).image⟩
  | _ => exact ⟨rfl, fun _ => rfl⟩

theorem State.clockBits_idAndImage (s : State) (bits : List Bool) :
    (s.clockBits bits).id = s.id ∧ (s.station ≠ .setup → (s.clockBits bits).image = s.image) := by
  obtain ⟨p, q, t, ht, he⟩ := s.clockBits_cases bits
  rw [he]
  exact ht.idAndImage

/-- Settles O14: only a request could change the image of a station, and one transaction takes one request, so none follows a
RESTART. -/
theorem idAndSealedImageAreKept : Obligations.IdAndSealedImageAreKept := by
  unfold Obligations.IdAndSealedImageAreKept
  intro c s t hreleased hpower hexec
  have hkept := exec_leads (s := s) (P := fun u => u.id = s.id ∧ u.image = s.image ∧ u.station = s.station)
    (Q := fun u => u.id = s.id ∧ (s.station ≠ .setup → u.image = s.image)) c (fun _ h => ⟨h.1, fun _ => h.2.1⟩)
    (fun _ _ _ _ _ _ h => h) (fun _ _ h => h) (fun _ straps hc _ => ?_) (fun _ h => ⟨h.1, fun _ => h.2.1⟩)
    (fun u bits _ h => ?_) (fun w u h => ?_) (fun f u hf h => ?_) ⟨rfl, rfl, rfl⟩
  · obtain ⟨u, hu, hid, himage⟩ := hkept
    rw [hu] at hexec
    injection hexec with hexec
    exact hexec ▸ ⟨hid, himage⟩
  · rcases hc with hc | ⟨scs, cfs, hc⟩
    · exact absurd hc (hreleased straps)
    · exact absurd hc (hpower straps scs cfs)
  · obtain ⟨hid, himage, hstation⟩ := h
    obtain ⟨hid', himage'⟩ := u.clockBits_idAndImage bits
    exact ⟨hid'.trans hid, fun hs => (himage' (hstation ▸ hs)).trans himage⟩
  · have hreach := (u.offerWord_calm w).reach
    exact ⟨hreach.id.trans h.1, fun _ => hreach.image.trans h.2.1⟩
  · obtain ⟨hid, himage, _⟩ := event_goesOn hf u
    exact ⟨hid.trans h.1, fun _ => himage.trans h.2.1⟩

end Sys2Proof.Machine
end

section
/-! PROOFS. Transactions of the host port, bit by bit (R170 to R176): O17, O18. -/

namespace Sys2Proof.Machine

/-! ### Bits in a phase that takes none -/

theorem State.clockBits_cons (bit : Bool) (bits : List Bool) (s : State) :
    s.clockBits (bit :: bits) = (s.clockBit bit).clockBits bits := rfl

/-- In IDLE, SPENT and BLOCKED a bit does nothing (R171). -/
theorem State.clockBits_still {s : State} (h : s.port.phase = .idle ∨ s.port.phase = .spent ∨ s.port.phase = .blocked)
    (bits : List Bool) : s.clockBits bits = s := by
  induction bits with
  | nil => rfl
  | cons bit bits ih =>
    have hbit : s.clockBit bit = s := by rcases h with h | h | h <;> simp [State.clockBit, h]
    rw [State.clockBits_cons, hbit, ih]

/-- In RESPONSE each bit sends one, and the last leads to SPENT (R171, R174). -/
theorem State.clockBits_response (bits : List Bool) {s : State} (hphase : s.port.phase = .response)
    (hleft : s.port.sent < 8 * s.port.response.length) :
    s.clockBits bits = { s with
      port := { s.port with
        sent := min (s.port.sent + bits.length) (8 * s.port.response.length)
        phase := if 8 * s.port.response.length ≤ s.port.sent + bits.length then .spent else .response } } := by
  induction bits generalizing s with
  | nil =>
    have hmin : min s.port.sent (8 * s.port.response.length) = s.port.sent := by omega
    simp only [List.length_nil, Nat.add_zero, if_neg (Nat.not_le.mpr hleft), hmin, ← hphase]
    rfl
  | cons bit bits ih =>
    have hbit : s.clockBit bit = { s with port := s.port.sendBit } := by simp [State.clockBit, hphase]
    rw [State.clockBits_cons, hbit]
    by_cases hlast : 8 * s.port.response.length ≤ s.port.sent + 1
    · have hspent : s.port.sendBit.phase = .spent := if_pos hlast
      have hsent : min (s.port.sent + (bits.length + 1)) (8 * s.port.response.length) = s.port.sent + 1 := by omega
      rw [State.clockBits_still (s := { s with port := s.port.sendBit }) (.inr (.inl hspent)), Port.sendBit, if_pos hlast,
        List.length_cons, if_pos (by omega), hsent]
    · have hgoing : s.port.sendBit.phase = .response := if_neg hlast
      rw [ih (s := { s with port := s.port.sendBit }) hgoing (by simp only [Port.sendBit]; omega)]
      simp only [Port.sendBit, List.length_cons, Nat.add_assoc, Nat.add_comm 1]

/-- A port that answers, or takes no bits, goes on so with the aborts counted so far (R174, R175). -/
theorem State.clockBits_answering {s : State} (h : s.port.phase = .response ∨ s.port.phase = .spent) (bits : List Bool) :
    ∃ q, s.clockBits bits = { s with port := q } ∧ (q.phase = .response ∨ q.phase = .spent) ∧ q.aborts = s.port.aborts ∧
      q.restartPending = s.port.restartPending := by
  induction bits generalizing s with
  | nil => exact ⟨s.port, rfl, h, rfl, rfl⟩
  | cons bit bits ih =>
    rcases h with h | h
    · have hbit : s.clockBit bit = { s with port := s.port.sendBit } := by simp [State.clockBit, h]
      have hphase : s.port.sendBit.phase = .response ∨ s.port.sendBit.phase = .spent := by
        unfold Port.sendBit
        simp only
        split
        · exact .inr rfl
        · exact .inl rfl
      obtain ⟨q, hq, hdone⟩ := ih (s := { s with port := s.port.sendBit }) hphase
      exact ⟨q, by rw [State.clockBits_cons, hbit, hq], hdone⟩
    · exact ⟨s.port, State.clockBits_still (.inr (.inl h)) _, .inr h, rfl, rfl⟩

/-! ### SCS -/

theorem satInc_counter (v : Counter) : satInc v = if v = 0xFFFF#16 then 0xFFFF#16 else v + 1 := by
  have hones : BitVec.allOnes 16 = 0xFFFF#16 := by decide
  rw [satInc, hones]
  split
  · assumption
  · rfl


theorem exec_scsReleased_off {s : State} (hrst : s.rst = false) (bits : List Bool) :
    exec (.scsReleased bits) s = .next
      { ({ s with scsPin := false } : State).clockBits bits with
        port := (({ s with scsPin := false } : State).clockBits bits).port.release } := by
  rw [exec_scsReleased, State.unlessRst_off (s := { s with scsPin := false }) _ hrst]

/-- A request cut short is one whose bits end before its command byte does, or before its arguments do (R175). -/
theorem shortOfRequest_of {bits : List Bool} (h : bits.length < 8 ∨
    ∃ (c : HostCommand) (rest : List Bool), bits = msbBits c.code ++ rest ∧ rest.length < 8 * c.argCount) :
    shortOfRequest bits = true := by
  unfold shortOfRequest
  rw [Bool.or_eq_true]
  rcases h with h | ⟨c, rest, rfl, hrest⟩
  · exact .inl (decide_eq_true h)
  · have hbyte : (msbBits c.code).length = 8 := rfl
    refine .inr ?_
    rw [List.take_left' hbyte, foldl_shiftIn_msbBits, HostCommand.ofCode_code, List.length_append, hbyte]
    exact decide_eq_true (by omega)

/-- A transaction that ends while its request is not complete is an abort (R175). -/
theorem Port.release_taking {q : Port} (h : q.phase.taking) : q.release = { Port.reset with aborts := satInc q.aborts } := by
  cases hq : q.phase <;> simp [hq, Phase.taking] at h <;> simp [Port.release, hq]

/-- A transaction with an answer ends without an abort, and with the port's reset where it carried RESTART (R175, R176). -/
theorem Port.release_answering {q : Port} (h : q.phase = .response ∨ q.phase = .spent) :
    q.release = { Port.reset with aborts := if q.restartPending then 0 else q.aborts } := by
  rcases h with h | h <;> cases hr : q.restartPending <;> simp [Port.release, h, hr] <;> rfl

/-- What the bits before the release of SCS leave of the port, in the cases of O17. -/
theorem State.clockBits_beforeRelease {s : State} (hrst : s.rst = false) {bits : List Bool}
    (h : s.port.phase = .response ∨ s.port.phase = .spent ∨ s.port.phase = .blocked ∨
      (s.port.phase = .arguments ∧ bits = []) ∨ (s.port.phase = .command ∧ s.port.bits ≠ 0 ∧ bits = []) ∨
      (s.port.phase = .command ∧ s.port.bits = 0 ∧ (bits.length < 8 ∨
        ∃ (c : HostCommand) (rest : List Bool), bits = msbBits c.code ++ rest ∧ rest.length < 8 * c.argCount))) :
    ∃ q, s.clockBits bits = { s with port := q } ∧ q.release = { Port.reset with
      aborts := if s.port.phase = .command ∨ s.port.phase = .arguments then satInc s.port.aborts
        else if s.port.restartPending = true ∧ s.port.phase ≠ .blocked then 0 else s.port.aborts } := by
  have hanswering (h : s.port.phase = .response ∨ s.port.phase = .spent) :
      ∃ q, s.clockBits bits = { s with port := q } ∧ q.release = { Port.reset with
        aborts := if s.port.phase = .command ∨ s.port.phase = .arguments then satInc s.port.aborts
          else if s.port.restartPending = true ∧ s.port.phase ≠ .blocked then 0 else s.port.aborts } := by
    obtain ⟨q, hq, hphase, haborts, hpending⟩ := State.clockBits_answering h bits
    refine ⟨q, hq, ?_⟩
    rw [Port.release_answering hphase, haborts, hpending]
    rcases h with h | h <;> simp [h]
  have hcut (htaking : s.port.phase = .command ∨ s.port.phase = .arguments) (hnone : bits = []) :
      ∃ q, s.clockBits bits = { s with port := q } ∧ q.release = { Port.reset with
        aborts := if s.port.phase = .command ∨ s.port.phase = .arguments then satInc s.port.aborts
          else if s.port.restartPending = true ∧ s.port.phase ≠ .blocked then 0 else s.port.aborts } := by
    subst hnone
    refine ⟨s.port, rfl, ?_⟩
    rw [if_pos htaking, Port.release_taking]
    rcases htaking with h | h <;> rw [h] <;> trivial
  rcases h with h | h | h | ⟨h, hnone⟩ | ⟨h, _, hnone⟩ | ⟨h, hzero, hshort⟩
  · exact hanswering (.inl h)
  · exact hanswering (.inr h)
  · refine ⟨s.port, State.clockBits_still (.inr (.inr h)) _, ?_⟩
    simp [Port.release, h]
  · exact hcut (.inr h) hnone
  · exact hcut (.inl h) hnone
  · obtain ⟨q, hq, htaking, haborts, _⟩ := State.clockBits_short s bits ⟨hrst, h, hzero⟩ (shortOfRequest_of hshort)
    refine ⟨q, hq, ?_⟩
    rw [Port.release_taking htaking, haborts, if_pos (.inl h)]

/-- Settles O17: the bits of a request that is not complete stay in the port, and SCS released ends the transaction by the phase. -/
theorem scsOpensAndEndsTransactions : Obligations.ScsOpensAndEndsTransactions := by
  unfold Obligations.ScsOpensAndEndsTransactions
  intro s hrst
  have hasserted : exec .scsAsserted s = .next (if s.port.phase = .idle then
      { s with scsPin := true, port := { Port.reset with phase := .command, aborts := s.port.aborts } }
      else { s with scsPin := true }) := by
    rw [exec_scsAsserted, State.unlessRst_off (s := { s with scsPin := true }) _ hrst]
  refine ⟨fun h => by rw [hasserted, if_pos h]; rfl, fun h => by rw [hasserted, if_neg h], fun bits => ⟨fun h => ?_, fun h => ?_⟩⟩
  · rw [exec_scsReleased_off hrst, State.clockBits_still (s := { s with scsPin := false }) (.inl h)]
    have hrelease : s.port.release = s.port := by simp [Port.release, h]
    rw [hrelease]
  · obtain ⟨q, hq, hrelease⟩ := State.clockBits_beforeRelease (s := { s with scsPin := false }) hrst h
    refine ⟨_, exec_scsReleased_off hrst bits, ?_⟩
    rw [hq, hrelease]
    refine ⟨rfl, rfl, rfl, rfl, rfl, rfl, rfl, ?_⟩
    rw [satInc_counter]

/-! ### Bytes that are no request -/

theorem HostCommand.ofCode_none {b : Byte} (h : ∀ c : HostCommand, c.code ≠ b) : HostCommand.ofCode b = none := by
  simp [HostCommand.ofCode, List.find?_eq_none, h]

theorem exec_badCommand (code : Byte) (s : State) : exec (.badCommand code) s = .next (s.clockRequest [code]) := rfl

/-- Settles O18: a byte is taken in COMMAND and ARGUMENTS alone, and one that names no command is answered by the port itself. -/
theorem bytesOutsideARequestReachNoBlock : Obligations.BytesOutsideARequestReachNoBlock := by
  unfold Obligations.BytesOutsideARequestReachNoBlock
  refine ⟨fun code s hopen hno => ?_, fun c s hhost hphase => ?_, fun code s hrst hphase hleft => ?_⟩
  · obtain ⟨hrst, hphase, hbits⟩ := hopen
    have hbyte := State.clockByte_taking s code (by rw [hphase]; trivial) hbits
    have hrequest : s.clockRequest [code] = s.clockByte code := by
      rw [State.clockRequest, State.unlessRst_off _ hrst]
      rfl
    rw [exec_badCommand, hrequest, hbyte]
    simp only [State.takeByte, State.withShift, hphase, State.takeCommandByte, HostCommand.ofCode_none hno]
    rfl
  · rw [exec_hostRequest hhost]
    cases hrst : s.rst with
    | true => rw [State.clockRequest, State.unlessRst_on _ hrst]
    | false => rw [State.clockRequest_eq_clockBits hrst, State.clockBits_still hphase]
  · rw [exec_badCommand, State.clockRequest_eq_clockBits hrst, State.clockBits_response _ hphase hleft]
    rfl

end Sys2Proof.Machine
end

section
/-! PROOFS. The requests of the station and the reads, as the host sees them (chapters 01, 09, 12): O19, O21, O22, O25, O26, O28, O34. -/

namespace Sys2Proof.Machine

/-! ### The answer to a request -/

/-- A request whose block leaves the station `u` with the port as it was is answered with its bytes, padded to the command's length
(R173, R174). -/
theorem State.request_served {s u : State} {command : Instr} {c : HostCommand} {args data response : List Byte} {status : Status}
    (hexec : exec command s = .next (s.clockRequest (c.code :: args))) (hopen : s.transactionOpen)
    (hargs : args.length = c.argCount)
    (hserve : serve c args (s.taking c args) = { state := u, status := status, data := data })
    (hport : u.port = (s.taking c args).port) (hresponse : padded c.responseLength (status.code :: data) = response) :
    exec command s = .next (u.answered c args response) := by
  rw [hexec, State.clockRequest_eq s c args hopen hargs, hserve, Reply.response, hresponse, hport]
  simp only [State.answered, hport]
  rfl

/-- A request that changes nothing. -/
theorem State.request_answered {s : State} {command : Instr} {c : HostCommand} {args data response : List Byte} {status : Status}
    (hexec : exec command s = .next (s.clockRequest (c.code :: args))) (hopen : s.transactionOpen)
    (hargs : args.length = c.argCount)
    (hserve : serve c args (s.taking c args) = { state := s.taking c args, status := status, data := data })
    (hresponse : padded c.responseLength (status.code :: data) = response) :
    exec command s = .next (s.answered c args response) :=
  State.request_served (u := s.taking c args) hexec hopen hargs hserve rfl hresponse

/-- Settles O19: both reads answer from the fields of the blocks. -/
theorem statusAndCountersReadAnswer : Obligations.StatusAndCountersReadAnswer := by
  unfold Obligations.StatusAndCountersReadAnswer
  intro s hopen
  exact ⟨State.request_answered rfl hopen rfl rfl rfl, State.request_answered rfl hopen rfl rfl rfl⟩

/-! ### Configuration items -/

theorem Item.ofNumber_number (i : Item) : Item.ofNumber i.number = some i := by
  cases i <;> first | rfl | decide +revert

/-- The number of a channel item lies in its channel's block of eight (R203). -/
theorem Item.number_of_ofChannelNumber {c : Channel} {k : Nat} {i : Item} (h : Item.ofChannelNumber c k = some i) :
    i.number = 16 + 8 * c.val + k := by
  unfold Item.ofChannelNumber at h
  split at h
  case h_8 => cases h
  all_goals
    cases h
    simp only [Item.number]
    omega

theorem Item.number_of_ofNumber {n : Nat} {i : Item} (h : Item.ofNumber n = some i) : i.number = n := by
  unfold Item.ofNumber at h
  split at h
  case h_10 =>
    split at h
    · have hnumber := Item.number_of_ofChannelNumber h
      simp only [Fin.val_ofNat] at hnumber
      omega
    · cases h
  all_goals cases h; rfl

theorem Item.ofNumber_eq_none {n : Nat} (h : ∀ i : Item, i.number ≠ n) : Item.ofNumber n = none := by
  cases hi : Item.ofNumber n with
  | none => rfl
  | some i => exact absurd (Item.number_of_ofNumber hi) (h i)

/-- Settles O21: numbers and items correspond one to one. -/
theorem configReadAnswersTheItem : Obligations.ConfigReadAnswersTheItem := by
  unfold Obligations.ConfigReadAnswersTheItem
  intro item s hopen
  refine ⟨fun i hi => ?_, fun hno => ?_⟩
  · refine State.request_answered (data := bytes16 (BitVec.ofNat 16 (s.image.read s.id i))) (status := .ok) rfl hopen rfl ?_ rfl
    simp only [serve, serveConfigRead, List.getD_cons_zero, ← hi, Item.ofNumber_number]
    rfl
  · refine State.request_answered (data := []) (status := .badItem) rfl hopen rfl ?_ rfl
    simp only [serve, serveConfigRead, List.getD_cons_zero, Item.ofNumber_eq_none hno]
    rfl

theorem BitRate.kbits_of_ofKbits {n : Nat} {r : BitRate} (h : BitRate.ofKbits n = some r) : r.kbits = n := by
  unfold BitRate.ofKbits at h
  split at h <;> cases h <;> rfl

/-- A value in range is read as it was written (R6, R7). -/
theorem Image.read_write {i : Item} {v : Nat} (h : i.inRange v = true) (m : Image) (id : StationId) :
    (m.write i v).read id i = v := by
  cases i with
  | bitRate =>
    obtain ⟨r, hr⟩ := Option.isSome_iff_exists.mp (show (BitRate.ofKbits v).isSome = true from h)
    simp only [Image.write, Image.read, hr, Option.getD_some]
    exact BitRate.kbits_of_ofKbits hr
  | enable c =>
    have hv : v ≤ 1 := of_decide_eq_true h
    simp only [Image.write, Image.read, Image.channel_setChannel, if_pos]
    split
    · rename_i h1; exact (of_decide_eq_true h1).symm
    · rename_i h0
      have hne : v ≠ 1 := fun h1 => h0 (decide_eq_true h1)
      omega
  | stationId => cases h
  | _ => simp [Image.write, Image.read, Image.channel_setChannel]

/-- A write leaves every other item: each item is a field of its own, in the image or in the settings of its channel. -/
theorem Image.read_write_ne {i j : Item} (h : j ≠ i) (v : Nat) (m : Image) (id : StationId) :
    (m.write i v).read id j = m.read id j := by
  cases i with
  | groupSize | windows | bitRate | period | absenceLimit | retryLimit | staleLimit | watermark =>
    cases j <;> first | rfl | exact absurd rfl h
  | stationId => rfl
  | enable c | la c | lw c | hw c | ha c | hysteresis c | persistence c =>
    cases j <;> simp only [Image.write, Image.read, Image.channel_setChannel] <;> first | rfl | skip
    all_goals split <;> first | rfl | (subst_vars; first | rfl | exact absurd rfl h)

/-- The image of a station that has stored an item; only a new watermark makes the feed judge IRQ (R197). -/
theorem State.storeItem_feed (i : Item) (v : Nat) (s : State) :
    (s.storeItem i v).feed = { s.feed with
      irq := if i = .watermark then decide ((s.image.write i v).watermark ≤ s.feed.records.length) ||
          decide (0 < s.feed.urgentCount) else s.feed.irq } := by
  unfold State.storeItem Feed.judge
  simp only
  split <;> rfl

/-- CONFIG_WRITE in SETUP, of an item that can be written. -/
theorem serveConfigWrite_item {s : State} (hsetup : s.station = .setup) {item : Byte} {i : Item} (hi : i.number = item.toNat)
    (hid : i ≠ .stationId) (value : BitVec 16) :
    serveConfigWrite item value s =
      if i.inRange value.toNat then (s.storeItem i value.toNat).done else s.refuse .badValue := by
  unfold serveConfigWrite
  rw [if_neg (not_not.mpr hsetup), ← hi, Item.ofNumber_number]
  cases i <;> first | rfl | exact absurd rfl hid

theorem serveConfigWrite_refused {s : State} (hs : s.station ≠ .setup) (item : Byte) (value : BitVec 16) :
    serveConfigWrite item value s = s.refuse .badState := if_pos hs

theorem serveConfigWrite_noItem {s : State} (hs : s.station = .setup) {item : Byte}
    (hno : ∀ i : Item, i.number = item.toNat → i = .stationId) (value : BitVec 16) :
    serveConfigWrite item value s = s.refuse .badItem := by
  unfold serveConfigWrite
  rw [if_neg (not_not.mpr hs)]
  cases hn : Item.ofNumber item.toNat with
  | none => rfl
  | some i => rw [hno i (Item.number_of_ofNumber hn)]

theorem extract_append_halves (v : BitVec 16) : v.extractLsb' 8 8 ++ v.extractLsb' 0 8 = v := by
  refine BitVec.eq_of_getElem_eq fun i hi => ?_
  simp only [BitVec.getElem_append, BitVec.getElem_extractLsb']
  split
  · rw [Nat.zero_add, BitVec.getLsbD_eq_getElem]
  · have hplace : 8 + (i - 8) = i := by omega
    rw [hplace, BitVec.getLsbD_eq_getElem]

/-- Settles O22: the three checks in turn, and then one item of the image written. -/
theorem configWriteStoresOneItem : Obligations.ConfigWriteStoresOneItem := by
  unfold Obligations.ConfigWriteStoresOneItem
  intro item value s hopen
  simp only
  have hserve (t : State) : serve .configWrite [item, value.extractLsb' 8 8, value.extractLsb' 0 8] t =
      serveConfigWrite item value t := by
    simp only [serve, List.getD_cons_zero, List.getD_cons_succ, extract_append_halves]
  refine ⟨fun hs => ?_, fun hs hno => ?_, fun i hs hi hid => ⟨fun hrange => ?_, fun hrange => ?_⟩⟩
  · refine State.request_answered (data := []) (status := .badState) rfl hopen rfl ?_ rfl
    rw [hserve, serveConfigWrite_refused (s := s.taking _ _) hs]
    rfl
  · refine State.request_answered (data := []) (status := .badItem) rfl hopen rfl ?_ rfl
    rw [hserve, serveConfigWrite_noItem (s := s.taking _ _) hs hno]
    rfl
  · refine State.request_answered (data := []) (status := .badValue) rfl hopen rfl ?_ rfl
    rw [hserve, serveConfigWrite_item (s := s.taking _ _) hs hi hid, hrange]
    rfl
  · refine ⟨_, State.request_served (u := (s.taking _ _).storeItem i value.toNat) (data := []) (status := .ok) rfl hopen rfl ?_
      rfl rfl, rfl, Image.read_write hrange _ _, fun j hj => Image.read_write_ne hj _ _ _, ?_⟩
    · rw [hserve, serveConfigWrite_item (s := s.taking _ _) hs hi hid, hrange]
      rfl
    · refine (State.storeItem_feed i value.toNat _).trans ?_
      by_cases hw : i = .watermark
      · subst hw; rfl
      · simp only [if_neg hw]; rfl

/-! ### START, RESTART, QUIET and RESUME -/

/-- Settles O25: every block but the image and the id takes its reset value, and the port keeps its transaction. -/
theorem restartKeepsImageAndId : Obligations.RestartKeepsImageAndId := by
  unfold Obligations.RestartKeepsImageAndId
  intro s hopen
  have hexec : exec .restart s = .next (s.clockRequest (HostCommand.restart.code :: [])) := rfl
  rw [hexec, State.clockRequest_eq s .restart [] hopen rfl]
  rfl

theorem serveResume_up {s : State} (hs : s.station = .quiet) (hup : s.line.lineState = .up) :
    serveResume s = s.enterListen.done := by
  simp [serveResume, hs, hup]

theorem serveResume_stuck {s : State} (hs : s.station = .quiet) (hstuck : s.line.lineState = .stuck) :
    serveResume s = ({ s with station := .stuck, cause := .none } : State).done := by
  simp [serveResume, hs, hstuck]

/-- Settles O28: RESUME answers by the line state. -/
theorem resumeLeavesQuiet : Obligations.ResumeLeavesQuiet := by
  unfold Obligations.ResumeLeavesQuiet
  intro s hopen
  refine ⟨fun hs => ?_, fun hs hup => ?_, fun hs hstuck => ?_⟩
  · refine State.request_answered (data := []) (status := .badState) rfl hopen rfl ?_ rfl
    exact if_pos hs
  · refine State.request_served (u := (s.taking .resume []).enterListen) (data := []) (status := .ok) rfl hopen rfl ?_ rfl rfl
    exact serveResume_up (s := s.taking .resume []) hs hup
  · refine State.request_served (u := { s.taking .resume [] with station := .stuck, cause := .none }) (data := [])
      (status := .ok) rfl hopen rfl ?_ rfl rfl
    exact serveResume_stuck (s := s.taking .resume []) hs hstuck

theorem State.leaveGroup_out {s : State} (h : s.station.participates = false) (o : WindowOutcome) : s.leaveGroup o = s :=
  if_neg (by rw [h]; decide)

theorem State.freeze_none {s : State} (h : lineEntry s.queue = none) (o : WindowOutcome) : s.freeze o = s := by
  simp [State.freeze, h]

/-- Leaving the group without an entry on the line releases the line alone. -/
theorem State.leaveGroup_none {s : State} (hin : s.station.participates = true) (h : lineEntry s.queue = none)
    (o : WindowOutcome) : s.leaveGroup o = { s with line := s.line.leave } := by
  rw [State.leaveGroup, if_pos hin, State.freeze_none h]

/-- QUIET asked for in a state that it leaves. -/
theorem serveQuiet_leaves {s : State} (hsetup : s.station ≠ .setup) (hquiet : s.station ≠ .quiet) :
    serveQuiet s = (s.enterQuiet .host .lost).done := by
  unfold serveQuiet
  cases hs : s.station <;> first | rfl | exact absurd hs hsetup | exact absurd hs hquiet

/-- QUIET entered from a station whose group is left as `t`. -/
theorem State.enterQuiet_of_leaveGroup {s t : State} {c : QuietCause} {o : WindowOutcome} (h : s.leaveGroup o = t) :
    s.enterQuiet c o = { t with
      station := .quiet, cause := c, silenceTimer := none
      feed := t.feed.arrive t.image.watermark t.line.round true (.stationQuiet c)
      ann := { t.ann with link := false, code := t.ann.own } } := by
  rw [State.enterQuiet, h]
  rfl

/-- Settles O26: outside the group the line stays; in it, without an entry on the line, the line is released. -/
theorem quietRequestEntersQuiet : Obligations.QuietRequestEntersQuiet := by
  unfold Obligations.QuietRequestEntersQuiet
  intro s hopen
  simp only
  have hserved {t : State} (hsetup : s.station ≠ .setup) (hquiet : s.station ≠ .quiet)
      (hleft : (s.taking .quiet []).leaveGroup .lost = t) :
      serve .quiet [] (s.taking .quiet []) = ({ t with
        station := .quiet, cause := .host, silenceTimer := none
        feed := t.feed.arrive t.image.watermark t.line.round true (.stationQuiet .host)
        ann := { t.ann with link := false, code := t.ann.own } } : State).done := by
    rw [serve, serveQuiet_leaves (s := s.taking .quiet []) hsetup hquiet, State.enterQuiet_of_leaveGroup hleft]
  refine ⟨fun hs => ?_, fun hs => ?_, fun hs => ?_, fun hs hnone => ?_⟩
  · refine State.request_answered (data := []) (status := .badState) rfl hopen rfl ?_ rfl
    simp only [serve, serveQuiet, State.taking, hs]
    rfl
  · refine State.request_answered (data := []) (status := .ok) rfl hopen rfl ?_ rfl
    simp only [serve, serveQuiet, State.taking, hs]
    rfl
  · have hout : s.station.participates = false := by rcases hs with hs | hs <;> rw [hs] <;> rfl
    refine (State.request_served (command := .quiet) rfl hopen rfl (hserved (t := s.taking .quiet []) ?_ ?_
      (State.leaveGroup_out (s := s.taking .quiet []) hout .lost)) rfl rfl).trans rfl
    all_goals rcases hs with hs | hs <;> rw [hs] <;> decide
  · have hin : s.station.participates = true := StationState.participates_iff.mpr hs
    exact ⟨_, State.request_served rfl hopen rfl
      (hserved (by rcases hs with hs | hs <;> rw [hs] <;> decide) (by rcases hs with hs | hs <;> rw [hs] <;> decide)
        (State.leaveGroup_none (s := s.taking .quiet []) hin hnone .lost)) rfl rfl, rfl, rfl, rfl, rfl, rfl, rfl, rfl, rfl⟩

/-! ### Diagnostic reads -/

theorem FeedBody.parts_length (b : FeedBody) : b.parts.length ≤ 9 := by
  have h16 (v : BitVec 16) : (bytes16 v).length = 2 := rfl
  have h32 (v : BitVec 32) : (bytes32 v).length = 4 := rfl
  cases b <;> simp [FeedBody.parts, h16, h32]

theorem FeedRecord.bytes_length (r : FeedRecord) : r.bytes.length = 14 := by
  have hparts := FeedBody.parts_length r.body
  simp only [FeedRecord.bytes, padded, List.length_append, List.length_replicate, List.length_singleton]
  have h16 (v : BitVec 16) : (bytes16 v).length = 2 := rfl
  rw [h16, h16]
  omega

theorem Fin.ofNat_eq_of_val {n : Nat} [NeZero n] {k : Fin n} {b : Nat} (h : k.val = b) : Fin.ofNat n b = k := by
  subst h
  exact Fin.ext (Nat.mod_eq_of_lt k.isLt)

/-- Settles O34: each read answers one record, entry or monitor by its number. -/
theorem diagnosticReadsAnswer : Obligations.DiagnosticReadsAnswer := by
  unfold Obligations.DiagnosticReadsAnswer
  intro s hopen
  refine ⟨fun hs => ?_, fun r rs hs => ?_, fun id hid => ?_, fun id k hk => ?_, fun slot hslot => ?_,
    fun slot k hk => ⟨fun hnone => ?_, fun e he => ?_⟩, fun channel hc => ?_, fun channel c hc => ?_⟩
  · refine State.request_answered (data := []) (status := .feedEmpty) rfl hopen rfl ?_ rfl
    simp only [serve, serveFeedPeek, State.taking, hs]
    rfl
  · refine State.request_answered (data := r.bytes) (status := .ok) rfl hopen rfl ?_ ?_
    · simp only [serve, serveFeedPeek, State.taking, hs]
      rfl
    · exact padded_of_length_eq (by simp [FeedRecord.bytes_length, HostCommand.responseLength])
  · refine State.request_answered (data := []) (status := .badValue) rfl hopen rfl ?_ rfl
    exact if_pos hid
  · refine State.request_answered (data := [(s.peer k).presence.code, byteOf (s.peer k).missed] ++ bytes16 (s.peer k).lastSeen)
      (status := .ok) rfl hopen rfl ?_ rfl
    have hle : ¬31 < id.toNat := by have := k.isLt; omega
    simp only [serve, serveRoster, List.getD_cons_zero, if_neg hle, Fin.ofNat_eq_of_val hk]
    rfl
  · refine State.request_answered (data := []) (status := .badValue) rfl hopen rfl ?_ rfl
    exact if_pos hslot
  · have hle : ¬14 < slot.toNat := by have := k.isLt; omega
    refine State.request_answered (data := []) (status := .none) rfl hopen rfl ?_ rfl
    simp only [serve, serveQueue, List.getD_cons_zero, if_neg hle, Fin.ofNat_eq_of_val hk, State.taking, hnone]
    rfl
  · have hle : ¬14 < slot.toNat := by have := k.isLt; omega
    refine State.request_answered (data := s.queueBytes e) (status := .ok) rfl hopen rfl ?_ ?_
    · simp only [serve, serveQueue, List.getD_cons_zero, if_neg hle, Fin.ofNat_eq_of_val hk, State.taking, he]
      rfl
    · refine padded_of_length_eq ?_
      unfold State.queueBytes State.noticeBytes
      cases e.notice <;> rfl
  · refine State.request_answered (data := []) (status := .badValue) rfl hopen rfl ?_ rfl
    exact if_pos hc
  · have hle : ¬7 < channel.toNat := by have := c.isLt; omega
    refine State.request_answered (data := (s.monitor c).bytes (s.image.channel c).enable) (status := .ok) rfl hopen rfl ?_ rfl
    simp only [serve, serveChannel, List.getD_cons_zero, if_neg hle, Fin.ofNat_eq_of_val hc]
    rfl

end Sys2Proof.Machine
end

section
/-! PROOFS. START, and the acknowledgement request of the host (R8, R9, R78, R79): O23, O24, O30. -/

namespace Sys2Proof.Machine

/-! ### The checks of START -/

/-- The thresholds of an enabled channel are in order (R8, check 3). -/
def ChannelConfig.Ordered (k : ChannelConfig) : Prop := k.enable = true → k.la ≤ k.lw ∧ k.lw < k.hw ∧ k.hw ≤ k.ha

/-- Channels in order are passed over. -/
theorem Image.failingChannel_append {i : Image} {cs : List Channel} (h : ∀ c ∈ cs, (i.channel c).Ordered) (ds : List Channel) :
    i.failingChannel (cs ++ ds) = i.failingChannel ds := by
  induction cs with
  | nil => rfl
  | cons c cs ih =>
    have hcs := ih fun d hd => h d (List.mem_cons_of_mem _ hd)
    rw [List.cons_append, Image.failingChannel]
    split
    · rename_i henable
      obtain ⟨hlow, hwindow, hhigh⟩ := h c List.mem_cons_self henable
      rw [if_neg (Nat.not_lt.mpr hlow), if_neg (Nat.not_le.mpr hwindow), if_neg (Nat.not_lt.mpr hhigh), hcs]
    · exact hcs

/-- The channels before a channel are those of smaller number (R8). -/
theorem channelOrder_split (c : Channel) :
    channelOrder = channelOrder.take c.val ++ c :: channelOrder.drop (c.val + 1) ∧ ∀ d ∈ channelOrder.take c.val, d < c := by
  decide +revert

theorem Image.failingChannel_at {i : Image} {c : Channel} (h : ∀ d < c, (i.channel d).Ordered) :
    i.failingChannel channelOrder = i.failingChannel (c :: channelOrder.drop (c.val + 1)) := by
  obtain ⟨hsplit, hbefore⟩ := channelOrder_split c
  rw [hsplit, Image.failingChannel_append fun d hd => h d (hbefore d hd), ← hsplit]

theorem serveStart_refused {s : State} (hs : s.station ≠ .setup) : serveStart s = s.refuse .badState := if_pos hs

theorem serveStart_failing {s : State} (hs : s.station = .setup) {i : Item} (hi : s.image.failingItem s.id = some i) :
    serveStart s = { state := s, status := .configInvalid, data := [byteOf i.number] } := by
  simp [serveStart, hs, hi]

theorem serveStart_passing {s : State} (hs : s.station = .setup) (hi : s.image.failingItem s.id = none) :
    serveStart s = s.startUp.done := by
  simp [serveStart, hs, hi]

theorem Image.failingItem_channels {i : Image} {id : StationId} (hid : id.val < i.groupSize)
    (hperiod : i.minimumRound ≤ i.period) : i.failingItem id = i.failingChannel channelOrder := by
  rw [Image.failingItem, if_neg (Nat.not_le.mpr hid), if_neg (Nat.not_lt.mpr hperiod)]

/-- Settles O24: the checks of START are made in the order of R8, and the first that fails gives its item. -/
theorem startNamesTheFirstFailingItem : Obligations.StartNamesTheFirstFailingItem := by
  unfold Obligations.StartNamesTheFirstFailingItem
  intro s hopen
  simp only
  have hfailing {i : Item} (hs : s.station = .setup) (hi : s.image.failingItem s.id = some i) :
      exec .start s = .next (s.answered .start [] [0x05#8, byteOf i.number]) :=
    State.request_answered rfl hopen rfl (serveStart_failing (s := s.taking .start []) hs hi) rfl
  refine ⟨fun hs => ?_, fun hs hid => ?_, fun hs hid hperiod => ?_, fun c hs hid hperiod hbefore henable => ?_⟩
  · exact State.request_answered (data := []) rfl hopen rfl (serveStart_refused (s := s.taking .start []) hs) rfl
  · exact hfailing (i := .groupSize) hs (if_pos hid)
  · refine hfailing (i := .period) hs ?_
    rw [Image.failingItem, if_neg (Nat.not_le.mpr hid), if_pos (show s.image.period < s.image.minimumRound from hperiod)]
  · have hitem : s.image.failingItem s.id = s.image.failingChannel (c :: channelOrder.drop (c.val + 1)) :=
      (Image.failingItem_channels hid hperiod).trans (Image.failingChannel_at hbefore)
    rw [Image.failingChannel] at hitem
    simp only [henable, if_true] at hitem
    refine ⟨fun hlow => ?_, fun hlow hwindow => ?_, fun hlow hwindow hhigh => ?_⟩
    · exact hfailing (i := .lw c) hs (hitem.trans (if_pos hlow))
    · refine hfailing (i := .hw c) hs (hitem.trans ?_)
      rw [if_neg (Nat.not_lt.mpr hlow), if_pos hwindow]
    · refine hfailing (i := .ha c) hs (hitem.trans ?_)
      rw [if_neg (Nat.not_lt.mpr hlow), if_neg (Nat.not_le.mpr hwindow), if_pos hhigh]

theorem State.monitor_startUp (s : State) (c : Channel) : s.startUp.monitor c =
    if (s.image.channel c).enable then { s.monitor c with staleTimer := s.image.staleStart } else s.monitor c := by
  have hmonitor : s.startUp.monitor c = (channelOrder.foldl State.startTimer s).monitor c := by
    rw [State.monitor, State.monitor, State.startUp_frame, State.enterListen]
  rw [hmonitor, State.monitor_startTimers]

/-- The state after an accepted START, its timers apart (R9, R121). -/
theorem State.startUp_eq (s : State) : s.startUp =
    { s with
      isSealed := true, station := .listen, cause := .none, listenCount := 0
      silenceTimer := some (Config.silencePeriods * s.image.period), monitors := s.startUp.monitors
      line := { s.line with position := .seek, drivenRun := 0, releasedRun := 0, idleRun := 0 } } := by
  rw [State.startUp_frame, State.enterListen]

/-- Settles O23: with every check passed the station starts up, and each enabled channel's timer with it. -/
theorem startEntersListen : Obligations.StartEntersListen := by
  unfold Obligations.StartEntersListen
  intro s hopen hs hid hperiod hordered
  have hpass : s.image.failingItem s.id = none := by
    refine (Image.failingItem_channels hid hperiod).trans ?_
    have hall := Image.failingChannel_append (i := s.image) (cs := channelOrder) (fun c _ => hordered c) []
    rwa [List.append_nil] at hall
  have hserve : serve .start [] (s.taking .start []) = (s.taking .start []).startUp.done :=
    serveStart_passing (s := s.taking .start []) hs hpass
  have hframe := (s.taking .start []).startUp_eq
  have hmonitors := (s.taking .start []).monitor_startUp
  generalize (s.taking .start []).startUp = u at hserve hframe hmonitors
  refine ⟨u.answered .start [] [0x00#8, 0xFF#8], State.request_served rfl hopen rfl hserve (by rw [hframe]) rfl, ?_, hmonitors⟩
  rw [hframe]
  rfl

/-! ### An acknowledgement request -/

/-- The lowest free ACK slot is the free one below which every ACK slot is taken (R70, R79). -/
theorem freeAckSlot_eq {q : List QueueEntry} {k : Fin 15} (hk : k ∈ ackSlots) (hfree : slotEntry k q = none)
    (hbelow : ∀ j ∈ ackSlots, j < k → (slotEntry j q).isSome = true) : freeAckSlot q = some k := by
  have hordered : ackSlots.Pairwise (· < ·) := by decide
  unfold freeAckSlot
  generalize ackSlots = slots at hk hbelow hordered
  induction slots with
  | nil => cases hk
  | cons j js ih =>
    obtain ⟨hj, hjs⟩ := List.pairwise_cons.mp hordered
    rw [List.find?_cons]
    rcases List.mem_cons.mp hk with rfl | hk
    · rw [hfree]; rfl
    · have htaken := hbelow j List.mem_cons_self (hj k hk)
      rw [Option.isSome_iff_exists] at htaken
      obtain ⟨e, he⟩ := htaken
      rw [he]
      exact ih hk (fun i hi => hbelow i (List.mem_cons_of_mem _ hi)) hjs

theorem freeAckSlot_none {q : List QueueEntry} (h : ∀ k ∈ ackSlots, (slotEntry k q).isSome = true) : freeAckSlot q = none := by
  refine List.find?_eq_none.mpr fun k hk => ?_
  simp [Option.isSome_iff_ne_none.mp (h k hk)]

theorem Entry.acked_iff (e : Entry) : e.acked = true ↔ e.ackedBy ≠ none := by
  rw [Entry.acked, Option.isSome_iff_ne_none]

theorem serveAck_found {s : State} (hs : s.station ≠ .setup) {origin channel : Byte} {o : StationId} {c : Channel}
    (ho : o.val = origin.toNat) (hc : c.val = channel.toNat) (seq : Byte) :
    serveAck origin channel seq s = s.requestAck o c seq := by
  have hrange : ¬(31 < origin.toNat ∨ 7 < channel.toNat) := by have := o.isLt; have := c.isLt; omega
  rw [serveAck, if_neg hs, if_neg hrange, Fin.ofNat_eq_of_val ho, Fin.ofNat_eq_of_val hc]

/-- Settles O30: the checks of R78 one after another, and the entry of R79. -/
theorem ackRequestQueuesAnAcknowledgement : Obligations.AckRequestQueuesAnAcknowledgement := by
  unfold Obligations.AckRequestQueuesAnAcknowledgement
  intro origin channel seq s hopen
  simp only
  have hrefused {status : Status} (hserve : serveAck origin channel seq (s.taking .ack [origin, channel, seq]) =
      (s.taking .ack [origin, channel, seq]).refuse status) :
      exec (.ack origin channel seq) s = .next (s.answered .ack [origin, channel, seq] [status.code, 0xFF#8]) :=
    State.request_answered (data := []) rfl hopen rfl hserve rfl
  refine ⟨fun hs => hrefused (status := .badState) (if_pos hs),
    fun hs hrange => hrefused (status := .badValue) ((if_neg hs).trans (if_pos hrange)), ?_⟩
  intro o c hs ho hc
  have hserve := serveAck_found (s := s.taking .ack [origin, channel, seq]) hs ho hc seq
  refine ⟨fun hnone => hrefused (status := .noSuchEntry) ?_, fun e hfind => ?_⟩
  · rw [hserve]
    unfold State.requestAck
    rw [show (s.taking .ack [origin, channel, seq]).table.find o c = none from hnone]
  have hfound : serveAck origin channel seq (s.taking .ack [origin, channel, seq]) =
      if e.seq ≠ seq then (s.taking .ack [origin, channel, seq]).refuse .staleSeq
      else if e.acked then (s.taking .ack [origin, channel, seq]).refuse .alreadyAcked
      else if s.queue.any (fun q => q.acknowledges o c) then (s.taking .ack [origin, channel, seq]).refuse .ackPending
      else
        match freeAckSlot s.queue with
        | none => (s.taking .ack [origin, channel, seq]).refuse .ackLimit
        | some slot =>
          { state := { s.taking .ack [origin, channel, seq] with
              queue := s.queue ++ [QueueEntry.fresh slot (.ack o c seq e.severity)] }
            status := .ok, data := [byteOf slot.val] } := by
    rw [hserve]
    unfold State.requestAck
    rw [show (s.taking .ack [origin, channel, seq]).table.find o c = some e from hfind]
    rfl
  refine ⟨fun hseq => hrefused (status := .staleSeq) (hfound.trans (if_pos hseq)), fun hseq hacked => hrefused (status := .alreadyAcked) (hfound.trans ?_),
    fun hseq hacked hany => hrefused (status := .ackPending) (hfound.trans ?_),
    fun hseq hacked hany hfull => hrefused (status := .ackLimit) (hfound.trans ?_),
    fun k hk hseq hacked hany hbelow hfree => ?_⟩
  · rw [if_neg (not_not.mpr hseq), if_pos ((Entry.acked_iff e).mpr hacked)]
  all_goals have hunacked : ¬e.acked = true := fun h => (Entry.acked_iff e).mp h hacked
  · rw [if_neg (not_not.mpr hseq), if_neg hunacked, if_pos hany]
  · rw [if_neg (not_not.mpr hseq), if_neg hunacked, if_neg (by rw [hany]; decide), freeAckSlot_none hfull]
  · refine (State.request_served (command := .ack origin channel seq) (status := .ok) (data := [byteOf k.val]) rfl hopen rfl
      (u := { s.taking .ack [origin, channel, seq] with
        queue := s.queue ++ [QueueEntry.fresh k (.ack o c seq e.severity)] }) (hfound.trans ?_) rfl rfl).trans rfl
    rw [if_neg (not_not.mpr hseq), if_neg hunacked, if_neg (by rw [hany]; decide), freeAckSlot_eq hk hfree hbelow]

end Sys2Proof.Machine
end

section
/-! PROOFS. The orders of the table, and what VIEW and ENTRY read of it (R46, R47, R61): O29. -/

namespace Sys2Proof.Machine

/-! ### The orders as orders of rank lists -/

theorem viewBefore_iff (a b : Entry) : viewBefore a b = true ↔ a.viewRanks < b.viewRanks := by
  simp [viewBefore, ranksBefore, Entry.viewRanks, List.cons_lt_cons_iff]

theorem victimBefore_iff (a b : Entry) : victimBefore a b = true ↔ a.victimRanks < b.victimRanks := by
  simp [victimBefore, ranksBefore, Entry.victimRanks, List.cons_lt_cons_iff]

theorem Entry.severity_le (e : Entry) : e.severity ≤ 3 := by
  unfold Entry.severity
  cases e.level <;> decide

theorem Entry.viewRanks_lt_iff (a b : Entry) : a.viewRanks < b.viewRanks ↔ a.standsAbove b := by
  have ha := a.severity_le
  have hb := b.severity_le
  have hsev : 3 - a.severity < 3 - b.severity ↔ b.severity < a.severity := by omega
  have hsame : 3 - a.severity = 3 - b.severity ↔ a.severity = b.severity := by omega
  simp only [Entry.viewRanks, List.cons_lt_cons_iff, hsev, hsame, Entry.standsAbove, Fin.lt_def, Fin.ext_iff,
    ← BitVec.toNat_inj]
  cases a.acked <;> cases b.acked <;> simp

/-- Entries of one key are at one place. -/
theorem Entry.key_of_viewRanks {a b : Entry} (h : a.viewRanks = b.viewRanks) : a.origin = b.origin ∧ a.channel = b.channel := by
  simp only [Entry.viewRanks, List.cons.injEq] at h
  obtain ⟨_, _, _, ho, hc, _⟩ := h
  exact ⟨Fin.ext ho, Fin.ext hc⟩

/-! ### The view order -/

theorem insertByView_perm (e : Entry) (es : List Entry) : (insertByView e es).Perm (e :: es) := by
  induction es with
  | nil => rfl
  | cons f fs ih =>
    unfold insertByView
    split
    · rfl
    · exact (ih.cons f).trans (.swap e f fs)

theorem viewOrder_perm (es : List Entry) : (viewOrder es).Perm es := by
  induction es with
  | nil => rfl
  | cons e es ih => exact (insertByView_perm e (viewOrder es)).trans (ih.cons e)

/-- An entry of a key of its own is inserted at its place. -/
theorem insertByView_sorted {e : Entry} {es : List Entry} (hes : es.Pairwise (fun a b => a.viewRanks < b.viewRanks))
    (hkey : ∀ f ∈ es, f.viewRanks ≠ e.viewRanks) : (insertByView e es).Pairwise (fun a b => a.viewRanks < b.viewRanks) := by
  induction es with
  | nil => exact List.pairwise_singleton _ _
  | cons f fs ih =>
    obtain ⟨hf, hfs⟩ := List.pairwise_cons.mp hes
    unfold insertByView
    split
    · rename_i hbefore
      have hef := (viewBefore_iff e f).mp hbefore
      refine List.pairwise_cons.mpr ⟨fun g hg => ?_, hes⟩
      rcases List.mem_cons.mp hg with rfl | hg
      · exact hef
      · exact hef.trans (hf g hg)
    · rename_i hafter
      have hfe : f.viewRanks < e.viewRanks :=
        lt_of_le_of_ne (not_lt.mp fun h => hafter ((viewBefore_iff e f).mpr h)) (hkey f List.mem_cons_self)
      refine List.pairwise_cons.mpr ⟨fun g hg => ?_, ih hfs fun g hg => hkey g (List.mem_cons_of_mem _ hg)⟩
      rcases List.mem_cons.mp ((insertByView_perm e fs).mem_iff.mp hg) with rfl | hg
      · exact hfe
      · exact hf g hg

/-- Entries of distinct keys stand in the view order one above the next (R46). -/
theorem viewOrder_sorted {es : List Entry} (h : es.Pairwise (fun a b => ¬(a.origin = b.origin ∧ a.channel = b.channel))) :
    (viewOrder es).Pairwise (fun a b => a.viewRanks < b.viewRanks) := by
  induction es with
  | nil => exact List.Pairwise.nil
  | cons e es ih =>
    obtain ⟨he, hes⟩ := List.pairwise_cons.mp h
    refine insertByView_sorted (ih hes) fun f hf hranks => ?_
    obtain ⟨ho, hc⟩ := Entry.key_of_viewRanks hranks
    exact he f ((viewOrder_perm es).mem_iff.mp hf) ⟨ho.symm, hc.symm⟩

/-- In a sorted list an entry's place is the number of those that stand above it. -/
theorem getElem?_of_sorted {es : List Entry} (h : es.Pairwise (fun a b => a.viewRanks < b.viewRanks)) {e : Entry} (he : e ∈ es) :
    es[(es.filter (fun f => decide (f.standsAbove e))).length]? = some e := by
  obtain ⟨before, after, rfl⟩ := List.append_of_mem he
  rw [List.pairwise_append, List.pairwise_cons] at h
  obtain ⟨_, ⟨hafter, _⟩, hbefore⟩ := h
  have habove (f : Entry) (hf : f ∈ before) : decide (f.standsAbove e) = true :=
    decide_eq_true ((Entry.viewRanks_lt_iff f e).mp (hbefore f hf e List.mem_cons_self))
  have hself : decide (e.standsAbove e) = false :=
    decide_eq_false fun hs => lt_irrefl _ ((Entry.viewRanks_lt_iff e e).mpr hs)
  have hbelow (f : Entry) (hf : f ∈ after) : ¬decide (f.standsAbove e) = true := fun hs =>
    lt_asymm (hafter f hf) ((Entry.viewRanks_lt_iff f e).mpr (of_decide_eq_true hs))
  rw [List.filter_append, List.filter_cons, hself, List.filter_eq_self.mpr habove, List.filter_eq_nil_iff.mpr hbelow]
  simp

theorem viewOrder_getElem? {es : List Entry} (h : es.Pairwise (fun a b => ¬(a.origin = b.origin ∧ a.channel = b.channel)))
    {e : Entry} (he : e ∈ es) : (viewOrder es)[(es.filter (fun f => decide (f.standsAbove e))).length]? = some e := by
  have hperm := viewOrder_perm es
  rw [← (hperm.filter _).length_eq]
  exact getElem?_of_sorted (viewOrder_sorted h) (hperm.mem_iff.mpr he)

/-! ### VIEW and ENTRY -/

theorem Entry.bytes_length (e : Entry) : e.bytes.length = 12 := rfl

theorem State.tableSound_sorted {s : State} (h : s.tableSound = true) :
    s.table.entries.Pairwise (fun a b => a.index < b.index) := by
  simp only [State.tableSound, Bool.and_eq_true, decide_eq_true_eq] at h
  exact h.1.1

theorem serveEntry_range {s : State} {origin channel : Byte} (h : 31 < origin.toNat ∨ 7 < channel.toNat) :
    serveEntry origin channel s = s.refuse .badValue := if_pos h

theorem serveEntry_find {s : State} {origin channel : Byte} {o : StationId} {c : Channel} (ho : o.val = origin.toNat)
    (hc : c.val = channel.toNat) : serveEntry origin channel s =
      match s.table.find o c with
      | some e => s.answer (e.bytes ++ bytes16 s.table.generation)
      | none => s.refuse .noSuchEntry := by
  have hrange : ¬(31 < origin.toNat ∨ 7 < channel.toNat) := by have := o.isLt; have := c.isLt; omega
  rw [serveEntry, if_neg hrange, Fin.ofNat_eq_of_val ho, Fin.ofNat_eq_of_val hc] <;> rfl

/-- Settles O29: the view order sorts the entries by rank lists that are all different, so an entry's place counts those above it. -/
theorem viewAndEntryReadTheTable : Obligations.ViewAndEntryReadTheTable := by
  unfold Obligations.ViewAndEntryReadTheTable
  intro s hopen hsound
  have hsorted := State.tableSound_sorted hsound
  have hdistinct : s.table.entries.Pairwise (fun a b => ¬(a.origin = b.origin ∧ a.channel = b.channel)) := by
    refine hsorted.imp fun {a b} hlt hkey => ?_
    have hindex : a.index = b.index := by rw [Entry.index, Entry.index, hkey.1, hkey.2]
    omega
  refine ⟨fun rank e he hrank => ?_, fun rank hrank => ?_, fun origin channel hrange => ?_,
    fun origin channel e he ho hc => ?_, fun origin channel ho hc hno => ?_⟩
  · have hplace := viewOrder_getElem? hdistinct he
    rw [hrank] at hplace
    refine State.request_answered (data := e.bytes ++ bytes16 s.table.generation) (status := .ok) rfl hopen rfl ?_ rfl
    simp only [serve, serveView, List.getD_cons_zero, State.taking, hplace]
    rfl
  · have hplace : (viewOrder s.table.entries)[rank.toNat]? = none :=
      List.getElem?_eq_none (by rw [(viewOrder_perm _).length_eq]; exact hrank)
    refine State.request_answered (data := List.replicate 12 absentByte ++ bytes16 s.table.generation) (status := .none) rfl
      hopen rfl ?_ rfl
    simp only [serve, serveView, List.getD_cons_zero, State.taking, hplace]
  · exact State.request_answered (data := []) (status := .badValue) rfl hopen rfl (serveEntry_range hrange) rfl
  · refine State.request_answered (data := e.bytes ++ bytes16 s.table.generation) (status := .ok) rfl hopen rfl ?_ rfl
    refine (serveEntry_find (s := s.taking .entry [origin, channel]) ho hc).trans ?_
    have hfind : s.table.find e.origin e.channel = some e := Table.find_of_mem hsorted he
    rw [show (s.taking .entry [origin, channel]).table.find e.origin e.channel = some e from hfind]
    rfl
  · refine State.request_answered (data := []) (status := .noSuchEntry) rfl hopen rfl ?_ rfl
    have hfind : s.table.find ⟨origin.toNat, by omega⟩ ⟨channel.toNat, by omega⟩ = none := by
      refine Table.find_none.mpr fun e he => Bool.eq_false_iff.mpr fun hkey => ?_
      obtain ⟨heo, hec⟩ := Entry.hasKey_eq hkey
      exact hno e he (by rw [heo]) (by rw [hec])
    refine (serveEntry_find (s := s.taking .entry [origin, channel]) (o := ⟨origin.toNat, by omega⟩)
      (c := ⟨channel.toNat, by omega⟩) rfl rfl).trans ?_
    rw [show (s.taking .entry [origin, channel]).table.find ⟨origin.toNat, by omega⟩ ⟨channel.toNat, by omega⟩ = none from hfind]
    rfl

end Sys2Proof.Machine
end

section
/-! PROOFS. What the pins follow, and RST (R3, R100, R165, R170, R197, R204): O16. -/

namespace Sys2Proof.Machine

theorem lowestKey_isSome (key : QueueEntry → Nat) (q : List QueueEntry) : (lowestKey key q).isSome = !q.isEmpty := by
  cases q with
  | nil => rfl
  | cons e es =>
    unfold lowestKey
    split
    · rfl
    · split <;> rfl

/-- There is a candidate where an entry may be sent (R80). -/
theorem State.candidate_isSome (s : State) : s.candidate.isSome = s.queue.any s.station.offers := by
  rw [State.candidate, lowestKey_isSome]
  generalize s.station.offers = offers
  induction s.queue with
  | nil => rfl
  | cons e es ih => cases he : offers e <;> simp [he, ih]

theorem StationState.offers_eq (st : StationState) (e : QueueEntry) :
    st.offers e = decide (e.state = .waiting ∧ (st = .active ∨ (st = .joining ∧ e.notice = .replay))) := by
  rw [Bool.eq_iff_iff, decide_eq_true_eq]
  exact StationState.offers_iff

theorem StationState.participates_eq (st : StationState) : st.participates = decide (st = .joining ∨ st = .active) := by
  cases st <;> rfl

/-- In the group, a start bit is driven at a start bit position of a window that is left, with an entry to send (R113, R130). -/
theorem State.startBitDrive_eq {s : State} (h : s.station.participates = true) :
    s.startBitDrive = (s.line.position.atStartBit s.image.groupSize &&
      decide (s.line.windowsUsed < s.image.windows ∧ lineEntry s.queue = none) &&
      s.queue.any (fun e => decide (e.state = .waiting ∧
        (s.station = .active ∨ (s.station = .joining ∧ e.notice = .replay))))) := by
  have hobserves : s.station.observes = true := by
    rcases StationState.participates_iff.mp h with hs | hs <;> rw [hs] <;> rfl
  have hround : s.line.position.atStartBit s.image.groupSize = true → s.line.position.inRound = true := by
    unfold Position.atStartBit
    split <;> rename_i hp
    · rw [hp]; exact fun _ => rfl
    · rw [hp]; exact fun _ => rfl
    · exact nofun
  have hoffers : s.queue.any s.station.offers = s.queue.any (fun e => decide (e.state = .waiting ∧
      (s.station = .active ∨ (s.station = .joining ∧ e.notice = .replay)))) :=
    congrArg s.queue.any (funext fun e => StationState.offers_eq s.station e)
  rw [State.startBitDrive, State.candidate_isSome, hoffers]
  rw [Bool.eq_iff_iff]
  simp only [Bool.and_eq_true, State.windowLeft_iff, State.follows_iff, decide_eq_true_eq, hobserves, true_and]
  exact ⟨fun ⟨⟨⟨_, hleft⟩, hstart⟩, hany⟩ => ⟨⟨hstart, hleft⟩, hany⟩,
    fun ⟨⟨hstart, hleft⟩, hany⟩ => ⟨⟨⟨hround hstart, hleft⟩, hstart⟩, hany⟩⟩

/-- What GTX follows outside RST (R100). -/
theorem State.gtx_eq {s : State} (hrst : s.rst = false) :
    s.gtx = (decide (s.station = .joining ∨ s.station = .active) &&
      (s.line.tx.headD false || s.line.sweepDrive ||
        (s.line.position.atStartBit s.image.groupSize &&
          decide (s.line.windowsUsed < s.image.windows ∧ lineEntry s.queue = none) &&
          s.queue.any (fun e => decide (e.state = .waiting ∧
            (s.station = .active ∨ (s.station = .joining ∧ e.notice = .replay))))))) := by
  rw [State.gtx, hrst, ← StationState.participates_eq]
  cases h : s.station.participates with
  | false => rfl
  | true => rw [State.startBitDrive_eq h]; rfl

/-- While RST is asserted, a command that ends no reset changes the inputs SCS and CFS at most. -/
theorem exec_whileRst {s t : State} (hrst : s.rst = true) {c : Instr} (hreleased : ∀ straps, c ≠ .rstReleased straps)
    (hpower : ∀ straps scs cfs, c ≠ .powerOn straps scs cfs) (hexec : exec c s = .next t) :
    t = { s with scsPin := t.scsPin, cfsPin := t.cfsPin } := by
  have hframe : ∃ scs cfs, exec c s = .next { s with scsPin := scs, cfsPin := cfs } := by
    cases hhost : isHostRequest c with
    | true => exact ⟨s.scsPin, s.cfsPin, by rw [exec_hostRequest hhost, State.clockRequest, State.unlessRst_on _ hrst]⟩
    | false =>
      cases hevt : eventOf c with
      | some f => exact ⟨s.scsPin, s.cfsPin, by rw [exec_event hevt, State.unlessRst_on _ hrst]⟩
      | none =>
        cases c with
        | powerOn straps scs cfs => exact absurd rfl (hpower straps scs cfs)
        | rstReleased straps => exact absurd rfl (hreleased straps)
        | rstAsserted => exact ⟨s.scsPin, s.cfsPin, by rw [exec_rstAsserted, State.unlessRst_on _ hrst]⟩
        | scsAsserted =>
          exact ⟨true, s.cfsPin, by rw [exec_scsAsserted, State.unlessRst_on (s := { s with scsPin := true }) _ hrst]⟩
        | scsReleased bits =>
          exact ⟨false, s.cfsPin, by rw [exec_scsReleased, State.unlessRst_on (s := { s with scsPin := false }) _ hrst]⟩
        | cfsAsserted =>
          exact ⟨s.scsPin, true, by rw [exec_cfsAsserted, State.unlessRst_on (s := { s with cfsPin := true }) _ hrst]⟩
        | wordClose bits =>
          exact ⟨s.scsPin, false, by rw [exec_wordClose, State.unlessRst_on (s := { s with cfsPin := false }) _ hrst]⟩
        | _ => first | exact Bool.noConfusion hhost | exact absurd hevt (Option.some_ne_none _)
  obtain ⟨scs, cfs, he⟩ := hframe
  rw [he] at hexec
  injection hexec with hexec
  rw [← hexec]

/-- Settles O16: the pins are read off the state; RST asserted clears what they follow, and no other command is heard. -/
theorem rstReleasesEveryPin : Obligations.RstReleasesEveryPin := by
  unfold Obligations.RstReleasesEveryPin
  refine ⟨fun s hrst => ?_, fun s hrst => ?_, fun c s t hrst hreleased hpower hexec =>
    exec_whileRst hrst hreleased hpower hexec⟩
  · have hsweep : s.line.sweepDrive = (match s.line.position, s.line.sweep with
        | .round .sweep b, some p => p.participant && p.code.getMsbD b
        | _, _ => false) := rfl
    have hstart : s.line.position.atStartBit s.image.groupSize = (match s.line.position with
        | .round .gapSweep b => decide (1 ≤ b)
        | .round (.window _) b => decide (59 + s.image.groupSize ≤ b)
        | _ => false) := rfl
    have hgtx := State.gtx_eq hrst
    rw [hsweep, hstart] at hgtx
    simp only [State.pins, State.grx, hgtx, State.sdo, State.irqPin, State.annS1, State.annS0, State.annU, State.annLink, hrst,
      Bool.not_false, Bool.true_and, lowActive, openDrain, threeState]
    cases s.port.phase <;> rfl
  · refine ⟨s.assertRst, by rw [exec_rstAsserted, State.unlessRst_off _ hrst], ?_⟩
    exact ⟨rfl, rfl, rfl, rfl, rfl, rfl, rfl, rfl, rfl, rfl, rfl, rfl, rfl, rfl, rfl, rfl, rfl, rfl, rfl, rfl, rfl, rfl⟩

end Sys2Proof.Machine
end

section
/-! PROOFS. The bits of a sample word, and how a frame is judged by their count (R18 to R22): O35, O36. -/

namespace Sys2Proof.Machine

/-! ### Bits shifted into a register -/

theorem shiftIn_getLsbD_zero {n : Nat} (v : BitVec n) (b : Bool) (h : 0 < n) : (shiftIn v b).getLsbD 0 = b := by
  cases b <;> simp [shiftIn, h]

theorem shiftIn_getLsbD_succ {n : Nat} (v : BitVec n) (b : Bool) {i : Nat} (h : i + 1 < n) :
    (shiftIn v b).getLsbD (i + 1) = v.getLsbD i := by
  cases b <;> simp [shiftIn, h] <;> exact (BitVec.getLsbD_eq_getElem _).symm

/-- The bits shifted into a register, last one first, then what stood in it. -/
theorem foldl_shiftIn_getLsbD {n : Nat} (xs : List Bool) (r : BitVec n) {i : Nat} (hi : i < n) :
    (xs.foldl shiftIn r).getLsbD i = if i < xs.length then xs.reverse.getD i false else r.getLsbD (i - xs.length) := by
  induction xs using List.reverseRecOn generalizing i with
  | nil => simp
  | append_singleton xs b ih =>
    rw [List.foldl_append, List.foldl_cons, List.foldl_nil, List.reverse_append, List.length_append, List.length_singleton]
    cases i with
    | zero => rw [shiftIn_getLsbD_zero _ _ hi, if_pos (Nat.succ_pos _)]; rfl
    | succ i =>
      rw [shiftIn_getLsbD_succ _ _ hi, ih (by omega)]
      by_cases h : i < xs.length
      · rw [if_pos h, if_pos (by omega)]; rfl
      · rw [if_neg h, if_neg (by omega)]
        congr 1
        omega

theorem msbBits_length {n : Nat} (v : BitVec n) : (msbBits v).length = n := by simp [msbBits]

theorem msbBits_reverse_getD {n : Nat} (v : BitVec n) (i : Nat) : (msbBits v).reverse.getD i false = v.getLsbD i := by
  by_cases hi : i < n
  · have hlen : i < (msbBits v).reverse.length := by simpa [msbBits_length] using hi
    rw [List.getD_eq_getElem _ _ hlen, List.getElem_reverse]
    have hplace : n - 1 - (n - 1 - i) = i := by omega
    have hlt : n - 1 - i < n := by omega
    simp [msbBits, BitVec.getMsbD_eq_getLsbD, hplace, hlt]
  · rw [List.getD_eq_default _ _ (by simpa [msbBits_length] using hi), BitVec.getLsbD_of_ge _ _ (Nat.le_of_not_lt hi)]

/-! ### Sample words (R18) -/

/-- The word that the bits of a sample word make. -/
def wordOf (c : Channel) (fault : Bool) (v : Value) : BitVec 16 := (sampleWord c fault v).foldl shiftIn 0

theorem sampleWord_length (c : Channel) (fault : Bool) (v : Value) : (sampleWord c fault v).length = 16 := rfl

theorem wordOf_getLsbD (c : Channel) (fault : Bool) (v : Value) {i : Nat} (hi : i < 16) :
    (wordOf c fault v).getLsbD i =
      if i < 12 then v.getLsbD i else if i = 12 then fault else (BitVec.ofNat 3 c.val).getLsbD (i - 13) := by
  have hreverse : (sampleWord c fault v).reverse = (msbBits v).reverse ++ (fault :: (msbBits (BitVec.ofNat 3 c.val)).reverse) := by
    simp [sampleWord]
  have hlength : (msbBits v).reverse.length = 12 := by rw [List.length_reverse, msbBits_length]
  rw [wordOf, foldl_shiftIn_getLsbD _ _ hi, sampleWord_length, if_pos hi, hreverse]
  by_cases h12 : i < 12
  · rw [if_pos h12, List.getD_append _ _ _ _ (by rw [hlength]; exact h12), msbBits_reverse_getD]
  · rw [if_neg h12, List.getD_append_right _ _ _ _ (by rw [hlength]; omega), hlength]
    by_cases heq : i = 12
    · subst heq; rfl
    · obtain ⟨k, rfl⟩ : ∃ k, i = 13 + k := ⟨i - 13, by omega⟩
      rw [if_neg heq, show 13 + k - 12 = k + 1 by omega, List.getD_cons_succ, msbBits_reverse_getD,
        show 13 + k - 13 = k by omega]

theorem wordChannel_wordOf (c : Channel) (fault : Bool) (v : Value) : wordChannel (wordOf c fault v) = c := by
  have hbits : (wordOf c fault v).extractLsb' 13 3 = BitVec.ofNat 3 c.val := by
    refine BitVec.eq_of_getLsbD_eq fun i hi => ?_
    rw [BitVec.getLsbD_extractLsb', decide_eq_true hi, Bool.true_and, wordOf_getLsbD _ _ _ (by omega), if_neg (by omega),
      if_neg (by omega), show 13 + i - 13 = i by omega]
  rw [wordChannel, hbits]
  exact Fin.ext (by simp)

theorem wordFault_wordOf (c : Channel) (fault : Bool) (v : Value) : wordFault (wordOf c fault v) = fault := by
  rw [wordFault, wordOf_getLsbD _ _ _ (by decide)]
  rfl

theorem wordValue_wordOf (c : Channel) (fault : Bool) (v : Value) : wordValue (wordOf c fault v) = v := by
  refine BitVec.eq_of_getLsbD_eq fun i hi => ?_
  rw [wordValue, BitVec.getLsbD_extractLsb', decide_eq_true hi, Bool.true_and, Nat.zero_add, wordOf_getLsbD _ _ _ (by omega),
    if_pos hi]

/-! ### The assembler (R18, R19) -/

theorem Assembler.takeBits_open {a : Assembler} (h : a.framing = true) (bits : List Bool) :
    bits.foldl Assembler.takeBit a = { a with taken := bits.foldl shiftIn a.taken, count := a.count + bits.length } := by
  induction bits generalizing a with
  | nil => rfl
  | cons bit bits ih =>
    have hbit : a.takeBit bit = { a with taken := shiftIn a.taken bit, count := a.count + 1 } := if_pos h
    rw [List.foldl_cons, hbit, ih (a := { a with taken := shiftIn a.taken bit, count := a.count + 1 }) h]
    simp only [List.foldl_cons, List.length_cons, Nat.add_assoc, Nat.add_comm 1]

theorem Assembler.takeBits_closed {a : Assembler} (h : a.framing = false) (bits : List Bool) :
    bits.foldl Assembler.takeBit a = a := by
  induction bits with
  | nil => rfl
  | cons bit bits ih =>
    have hbit : a.takeBit bit = a := if_neg (by rw [h]; decide)
    rw [List.foldl_cons, hbit, ih]

/-- The station with its sample frame closed (R18). -/
def State.frameClosed (s : State) : State := { s with cfsPin := false, assembler := Assembler.reset }

theorem exec_wordClose_off {s : State} (hrst : s.rst = false) (bits : List Bool) :
    exec (.wordClose bits) s = .next (({ s with cfsPin := false, assembler := bits.foldl Assembler.takeBit s.assembler } : State).closeFrame) := by
  rw [exec_wordClose, State.unlessRst_off (s := { s with cfsPin := false }) _ hrst]
  rfl

/-- Without an open frame a close closes nothing. -/
theorem exec_wordClose_closed {s : State} (hrst : s.rst = false) (h : s.assembler.framing = false) (bits : List Bool) :
    exec (.wordClose bits) s = .next s.frameClosed := by
  rw [exec_wordClose_off hrst, Assembler.takeBits_closed h, State.closeFrame]
  simp only [h]
  rfl

/-- A frame that closes at another count than 16 is a framing error (R19). -/
theorem exec_wordClose_error {s : State} (hrst : s.rst = false) (h : s.assembler.framing = true) {bits : List Bool}
    (hcount : s.assembler.count + bits.length ≠ 16) :
    exec (.wordClose bits) s = .next { s.frameClosed with framingErrors := satInc s.framingErrors } := by
  rw [exec_wordClose_off hrst, Assembler.takeBits_open h, State.closeFrame]
  simp only [h, if_true, if_neg hcount]
  rfl

/-- A frame of 16 bits offers its word to the monitors (R20). -/
theorem exec_wordClose_word {s : State} (h : s.sampleFrameOpen) (c : Channel) (fault : Bool) (v : Value) :
    exec (.wordClose (sampleWord c fault v)) s = .next (s.frameClosed.offerWord (wordOf c fault v)) := by
  obtain ⟨hrst, hopen⟩ := h
  have hframing : s.assembler.framing = true := by rw [hopen]
  have hcount : s.assembler.count + (sampleWord c fault v).length = 16 := by rw [hopen, sampleWord_length]
  have htaken : s.assembler.taken = 0 := by rw [hopen]
  rw [exec_wordClose_off hrst, Assembler.takeBits_open hframing, State.closeFrame]
  simp only [hframing, if_true, if_pos hcount, htaken]
  rfl

/-- Settles O35: the assembler counts bits while a frame is open, and the close looks at the count alone. -/
theorem framesAreJudgedByTheirBitCount : Obligations.FramesAreJudgedByTheirBitCount := by
  unfold Obligations.FramesAreJudgedByTheirBitCount
  intro s hrst
  have hasserted : exec .cfsAsserted s = .next (if s.assembler.waiting = true ∨ s.assembler.framing = true then
      { s with cfsPin := true } else { s with cfsPin := true, assembler := { Assembler.reset with framing := true } }) := by
    rw [exec_cfsAsserted, State.unlessRst_off (s := { s with cfsPin := true }) _ hrst]
    rfl
  refine ⟨fun hwaiting hframing => ?_, fun hopen => ?_, fun bits hframing => exec_wordClose_closed hrst hframing bits,
    fun bits hframing hcount => ?_, fun c fault v hopen hoff => ?_⟩
  · rw [hasserted, if_neg (by rw [hwaiting, hframing]; decide)]
    rfl
  · rw [hasserted, if_pos hopen]
  · rw [exec_wordClose_error hrst hframing hcount, satInc_counter]
    rfl
  · rw [exec_wordClose_word hopen, State.offerWord, wordChannel_wordOf, if_neg]
    · rfl
    · rcases hoff with hs | hs <;> simp [State.frameClosed, hs, StationState.classifies]

/-- Settles O36: the table of R22 is written over natural numbers without a subtraction, and without hysteresis its alternatives are
the rows of R21 but at the alarm thresholds. -/
theorem levelsFollowTheThresholds : Obligations.LevelsFollowTheThresholds := by
  unfold Obligations.LevelsFollowTheThresholds
  intro k v
  have hhigh (a : Nat) : ((a : Int) - (k.hysteresis : Int) < v) = (a < v + k.hysteresis) := propext (by omega)
  have hlow (a : Nat) : ((v : Int) < (a : Int) + (k.hysteresis : Int)) = (v < a + k.hysteresis) := propext (by omega)
  simp only [hhigh, hlow]
  refine ⟨rfl, rfl, rfl, rfl, rfl, rfl, rfl, fun hlow hwindow hhigh hzero l => ?_⟩
  have hraw : rawLevel k v = if k.ha ≤ v then .highAlarm else if k.hw ≤ v then .highWarn else if v ≤ k.la then .lowAlarm
      else if v ≤ k.lw then .lowWarn else .normal := rfl
  cases l with
  | normal | fault => exact .inl rfl
  | highAlarm | highWarn | lowAlarm | lowWarn =>
    simp only [targetLevel, hraw, hzero, Nat.add_zero]
    split_ifs <;> simp <;> omega

end Sys2Proof.Machine
end

section
/-! PROOFS. What a value word, a fault word and an expiry of the stale timer make of their station (R20 to R31): O37, O38. -/

namespace Sys2Proof.Machine

theorem exec_event_off {c : Instr} {f : State → State} (h : eventOf c = some f) {s : State} (hrst : s.rst = false) :
    exec c s = .next (f s) := by
  rw [exec_event h, State.unlessRst_off f hrst]

theorem StationState.classifies_of_ne {p : StationState} (h : p ≠ .setup) : p.classifies = true := by
  cases p <;> first | rfl | exact absurd rfl h

theorem persist_self (current : Level) (candidate : Option Level) (count : Nat) :
    persist current current candidate count = (none, 0) := if_pos rfl

theorem persist_run {current target : Level} (h : target ≠ current) (count : Nat) :
    persist current target (some target) count = (some target, count + 1) := by
  rw [persist, if_neg h, if_pos rfl]

theorem persist_fresh {current target : Level} {candidate : Option Level} (h : target ≠ current)
    (hc : candidate ≠ some target) (count : Nat) : persist current target candidate count = (some target, 1) := by
  rw [persist, if_neg h, if_neg hc]

section
variable {s : State} (c : Channel)

/-- A value classified while its persistence is short, or back at the level held (R23). -/
theorem State.classify_stays {p : Option Level × Nat} (m : Monitor)
    (hp : persist m.level (targetLevel (s.image.channel c) m.level m.lastValue.toNat) m.candidate m.count = p)
    (hshort : p.1 = none ∨ p.2 ≠ (s.image.channel c).persistence) :
    (s.setMonitor c m).classify c = s.setMonitor c { m with candidate := p.1, count := p.2 } := by
  have himage : (s.setMonitor c m).image = s.image := rfl
  unfold State.classify
  simp only [State.monitor_setMonitor_self, State.setMonitor_setMonitor, himage, hp]
  obtain ⟨candidate, count⟩ := p
  cases candidate with
  | none => rfl
  | some y => exact if_neg (hshort.resolve_left (Option.some_ne_none y))

/-- A value classified at full persistence adopts its target (R23). -/
theorem State.classify_adopts {y : Level} (m : Monitor)
    (hp : persist m.level (targetLevel (s.image.channel c) m.level m.lastValue.toNat) m.candidate m.count
      = (some y, (s.image.channel c).persistence)) :
    (s.setMonitor c m).classify c = s.adoptFrom m c y .none := by
  have himage : (s.setMonitor c m).image = s.image := rfl
  unfold State.classify
  simp only [State.monitor_setMonitor_self, State.setMonitor_setMonitor, himage, hp, if_true, State.adopt_setMonitor]
  rfl

/-- A value word at an enabled channel is classified from its monitor with the new value and the timer restarted (R20). -/
theorem exec_valueWord (hopen : s.sampleFrameOpen) (hstation : s.station ≠ .setup)
    (henable : (s.image.channel c).enable = true) (v : Value) :
    exec (.wordClose (sampleWord c false v)) s = .next ((s.frameClosed.setMonitor c
      { s.monitor c with lastValue := v, staleTimer := s.image.staleStart }).classify c) := by
  have hoffered : (s.frameClosed.station.classifies && (s.frameClosed.image.channel c).enable) = true :=
    Bool.and_eq_true_iff.mpr ⟨StationState.classifies_of_ne hstation, henable⟩
  rw [exec_wordClose_word hopen, State.offerWord, wordChannel_wordOf, if_pos hoffered, State.sampleArrival]
  simp only [wordChannel_wordOf, wordFault_wordOf, wordValue_wordOf, State.monitor_setMonitor_self,
    State.setMonitor_setMonitor, Bool.false_eq_true, if_false]
  rfl

/-- A fault word at an enabled channel is a fault event from its monitor with the timer restarted (R20, R24). -/
theorem exec_faultWord (hopen : s.sampleFrameOpen) (hstation : s.station ≠ .setup)
    (henable : (s.image.channel c).enable = true) (v : Value) :
    exec (.wordClose (sampleWord c true v)) s = .next ((s.frameClosed.setMonitor c
      { s.monitor c with staleTimer := s.image.staleStart }).faultEvent c .converter) := by
  have hoffered : (s.frameClosed.station.classifies && (s.frameClosed.image.channel c).enable) = true :=
    Bool.and_eq_true_iff.mpr ⟨StationState.classifies_of_ne hstation, henable⟩
  rw [exec_wordClose_word hopen, State.offerWord, wordChannel_wordOf, if_pos hoffered, State.sampleArrival]
  simp only [wordChannel_wordOf, wordFault_wordOf, if_true]
  rfl

/-- The expiry of a running stale timer is a fault event from its monitor with the timer stopped (R25). -/
theorem exec_staleTimerExpiry (hrst : s.rst = false) (hstation : s.station ≠ .setup) (ht : (s.monitor c).staleTimer ≠ none) :
    exec (.staleTimerExpiry c) s = .next
      ((s.setMonitor c { s.monitor c with staleTimer := none }).faultEvent c .stale) := by
  have hruns : (s.station.classifies && (s.monitor c).staleTimer.isSome) = true :=
    Bool.and_eq_true_iff.mpr ⟨StationState.classifies_of_ne hstation, Option.isSome_iff_ne_none.mpr ht⟩
  rw [exec_event_off (f := State.staleExpiry c) rfl hrst, State.staleExpiry, if_pos hruns]

theorem State.faultEvent_inFault {m : Monitor} (h : m.level = .fault) (cause : FaultCause) :
    (s.setMonitor c m).faultEvent c cause = s.setMonitor c { m with faultCause := cause } :=
  (s.faultEvent_setMonitor m c cause).elim (fun h' => h'.2) fun h' => absurd h h'.1

theorem State.faultEvent_adopts {m : Monitor} (h : m.level ≠ .fault) (cause : FaultCause) :
    (s.setMonitor c m).faultEvent c cause = s.adoptFrom m c .fault cause :=
  (s.faultEvent_setMonitor m c cause).elim (fun h' => absurd h'.1 h) fun h' => h'.2

end

/-- Settles O37: the branches of the classification that adopt nothing set the monitor alone. -/
theorem samplesWithoutAdoptionStayInTheMonitor : Obligations.SamplesWithoutAdoptionStayInTheMonitor := by
  unfold Obligations.SamplesWithoutAdoptionStayInTheMonitor
  intro s c hrst hstation
  refine ⟨fun v hopen henable => ⟨fun hback => ?_, fun haway hrun hshort => ?_, fun haway hfresh hshort => ?_⟩,
    fun v hopen henable hfault => ?_, fun ht hfault => ?_, fun ht => ?_⟩
  · have hp : persist (s.monitor c).level (targetLevel (s.image.channel c) (s.monitor c).level v.toNat) (s.monitor c).candidate
        (s.monitor c).count = (none, 0) := by rw [hback, persist_self]
    rw [exec_valueWord c hopen hstation henable, State.classify_stays c _ hp (.inl rfl)]
    rfl
  · have hp := persist_run haway (s.monitor c).count
    rw [← hrun] at hp
    rw [exec_valueWord c hopen hstation henable, State.classify_stays c _ hp (.inr hshort), hrun]
    rfl
  · have hp := persist_fresh haway hfresh (s.monitor c).count
    rw [exec_valueWord c hopen hstation henable, State.classify_stays c _ hp (.inr (Ne.symm hshort))]
    rfl
  · rw [exec_faultWord c hopen hstation henable, State.faultEvent_inFault c (m := { s.monitor c with staleTimer := s.image.staleStart }) hfault]
    rfl
  · rw [exec_staleTimerExpiry c hrst hstation ht, State.faultEvent_inFault c (m := { s.monitor c with staleTimer := none }) hfault]
  · rw [exec_event_off (f := State.staleExpiry c) rfl hrst, State.staleExpiry, if_neg (by simp [ht])]

/-! ### An adoption -/

/-- Whatever brings an adoption, it is made from the channel's monitor with the last value and the timer that the command leaves,
on a station whose sample port alone may have moved. -/
theorem State.adoptionAt_adopts {s : State} {command : Instr} {c : Channel} {y : Level} {cause : FaultCause} {last : Value}
    {timer : Option Nat} (h : s.adoptionAt command c y cause last timer) :
    ∃ u : State, u = { s with cfsPin := u.cfsPin, assembler := u.assembler } ∧
      exec command s = .next (u.adoptFrom { s.monitor c with lastValue := last, staleTimer := timer } c y cause) := by
  obtain ⟨hrst, hstation, hy, ⟨hopen, henable, rfl, rfl, hrun, rfl, rfl⟩ | ⟨hopen, henable, ⟨v, rfl⟩, rfl, rfl, rfl, rfl⟩ |
    ⟨rfl, ht, rfl, rfl, rfl, rfl⟩⟩ := h
  · have hp : persist (s.monitor c).level (targetLevel (s.image.channel c) (s.monitor c).level last.toNat)
        (s.monitor c).candidate (s.monitor c).count =
          (some (targetLevel (s.image.channel c) (s.monitor c).level last.toNat), (s.image.channel c).persistence) := by
      obtain ⟨hcand, hn⟩ | ⟨hcand, hn⟩ := hrun
      · rw [hcand, persist_run hy, hn]
      · rw [persist_fresh hy hcand, hn]
    exact ⟨s.frameClosed, rfl, by rw [exec_valueWord c hopen hstation henable, State.classify_adopts c _ hp]; rfl⟩
  · have hfault := State.faultEvent_adopts (s := s.frameClosed) c
      (m := { s.monitor c with staleTimer := s.image.staleStart }) (Ne.symm hy) .converter
    exact ⟨s.frameClosed, rfl, by rw [exec_faultWord c hopen hstation henable, hfault]; rfl⟩
  · have hfault := State.faultEvent_adopts (s := s) c (m := { s.monitor c with staleTimer := none }) (Ne.symm hy) .stale
    exact ⟨s, rfl, by rw [exec_staleTimerExpiry c hrst hstation ht, hfault]⟩

theorem State.adoptFrom_reach (m : Monitor) (c : Channel) (y : Level) (cause : FaultCause) (s : State) :
    s.TableReach (s.adoptFrom m c y cause) :=
  (s.setMonitor_reach c _).trans ((State.adoptEntry_reach c _ _).trans (State.withQueue_reach _ _))

theorem State.adoptFrom_monitors (m : Monitor) (c : Channel) (y : Level) (cause : FaultCause) (s : State) :
    (s.adoptFrom m c y cause).monitors = (s.setMonitor c (m.adopting y cause)).monitors :=
  State.adoptEntry_monitors c _ _

theorem State.monitor_adoptFrom (m : Monitor) (c d : Channel) (y : Level) (cause : FaultCause) (s : State) :
    (s.adoptFrom m c y cause).monitor d = if c = d then m.adopting y cause else s.monitor d := by
  rw [← State.monitor_setMonitor]
  simp only [State.monitor, State.adoptFrom_monitors]

/-- The record after an adoption, with the two ways its acknowledgement is dropped taken together (R29, R30). -/
theorem Record.adopt_eq (r : Record) (x y : Level) (v : Value) :
    r.adopt x y v =
      { seq := r.seq + 1
        level := if y = .normal then x else y
        active := decide (y ≠ .normal)
        ackedBy := if x = .normal ∨ (y ≠ .normal ∧ x.severity < y.severity) then none else r.ackedBy
        shelved := r.shelved
        value := v } := by
  by_cases h : x = .normal <;> simp [Record.adopt, h]

/-- Settles O38: an adoption sets one monitor, and its record by R28 to R31. -/
theorem adoptionUpdatesTheRecord : Obligations.AdoptionUpdatesTheRecord := by
  unfold Obligations.AdoptionUpdatesTheRecord
  intro s command c y cause last timer h
  obtain ⟨u, hu, hexec⟩ := State.adoptionAt_adopts h
  have hmonitor (d : Channel) := State.monitor_adoptFrom { s.monitor c with lastValue := last, staleTimer := timer } c d y cause u
  have hreach := State.adoptFrom_reach { s.monitor c with lastValue := last, staleTimer := timer } c y cause u
  have hsame (d : Channel) : u.monitor d = s.monitor d := by rw [hu]; rfl
  refine ⟨_, hexec, ?_, fun d hd => ?_, ?_⟩
  · generalize u.adoptFrom _ c y cause = t at hreach
    rw [hreach.eq, hu]
  · rw [hmonitor, if_neg (Ne.symm hd), hsame]
  · rw [hmonitor, if_pos rfl, Monitor.adopting, Record.adopt_eq]

end Sys2Proof.Machine
end

section
/-! PROOFS. ACK entries that go stale, one key or several, with the records they leave (R93, R94), and entries that leave the table
one after another (R59, R66). -/

namespace Sys2Proof.Machine

/-! ### Records one after another -/

theorem Feed.recordAll_append (w : Nat) (r : Counter) (bs cs : List FeedBody) (f : Feed) :
    f.recordAll w r (bs ++ cs) = (f.recordAll w r bs).recordAll w r cs := List.foldl_append

@[simp] theorem Feed.recordAll_nil (w : Nat) (r : Counter) (f : Feed) : f.recordAll w r [] = f := rfl

theorem Feed.recordAll_cons (w : Nat) (r : Counter) (b : FeedBody) (bs : List FeedBody) (f : Feed) :
    f.recordAll w r (b :: bs) = (f.arrive w r false b).recordAll w r bs := rfl

/-- Records written by the station, none of them urgent. -/
def State.writeAll (bs : List FeedBody) (s : State) : State :=
  { s with feed := s.feed.recordAll s.image.watermark s.line.round bs }

theorem State.writeSuperseded_eq (n : Notice) (s : State) : s.writeSuperseded n = s.writeAll n.supersededBody := by
  cases n <;> rfl

/-! ### One key -/

theorem QueueEntry.staleFor_singleton (o : StationId) (c : Channel) (e : QueueEntry) :
    e.staleFor [(o, c)] = e.acknowledges o c := by
  simp [QueueEntry.staleFor]

theorem QueueEntry.staleFor_cons (k : StationId × Channel) (ks : List (StationId × Channel)) (e : QueueEntry) :
    e.staleFor (k :: ks) = (e.acknowledges k.1 k.2 || e.staleFor ks) := rfl

theorem queueAfterStale_nil (q : List QueueEntry) : queueAfterStale [] q = q := by
  simp [queueAfterStale, QueueEntry.staleFor]

@[simp] theorem staleRecords_nil (q : List QueueEntry) : staleRecords [] q = [] := rfl

theorem staleRecords_singleton (o : StationId) (c : Channel) (q : List QueueEntry) :
    staleRecords [(o, c)] q = (q.filter (fun e => e.acknowledges o c && !e.onLine)).flatMap (·.notice.supersededBody) := by
  simp [staleRecords]

/-- In a sound queue the ACK entry of a key is the one entry of its slot. -/
theorem QueueOk.acknowledges_iff_slot {id : StationId} {q : List QueueEntry} (h : QueueOk id q) {o : StationId} {c : Channel}
    {e : QueueEntry} (he : q.find? (fun e => e.acknowledges o c) = some e) {f : QueueEntry} (hf : f ∈ q) :
    f.acknowledges o c = true ↔ f.slot = e.slot := by
  obtain ⟨hmem, htarget⟩ := find?_acknowledges he
  have hack : e.acknowledges o c = true := (e.acknowledges_iff o c).mpr htarget
  refine ⟨fun hfack => ?_, fun hslot => h.eq_of_slot hf hmem hslot ▸ hack⟩
  by_contra hne
  have hnodup := h.targets
  rw [List.Nodup, List.pairwise_filterMap] at hnodup
  have hfe : f ≠ e := fun heq => hne (heq ▸ rfl)
  have hsymm : Std.Symm (fun a b : QueueEntry => ∀ k ∈ a.notice.target, ∀ l ∈ b.notice.target, k ≠ l) :=
    ⟨fun a b hab l hl k hk hkl => hab k hk l hl hkl.symm⟩
  exact hnodup.forall hf hmem hfe (o, c) ((f.acknowledges_iff o c).mp hfack) (o, c) htarget rfl

/-- The ACK entry of a key goes stale: the queue, and the record where it is retired (R93, R94). -/
theorem State.makeStale_eq {s : State} (h : QueueOk s.id s.queue) (o : StationId) (c : Channel) :
    s.makeStale o c = { s.writeAll (staleRecords [(o, c)] s.queue) with queue := queueAfterStale [(o, c)] s.queue } := by
  simp only [queueAfterStale, QueueEntry.staleFor_singleton, staleRecords_singleton]
  obtain ⟨hnone, hs⟩ | ⟨e, hfind, hline, hs⟩ | ⟨e, hfind, hoff, hs⟩ := s.makeStale_cases o c <;> rw [hs]
  · have hnot : ∀ e ∈ s.queue, e.acknowledges o c = false := by simpa [List.find?_eq_none] using hnone
    have hkept : s.queue.filter (fun e => !e.acknowledges o c || e.onLine) = s.queue :=
      List.filter_eq_self.mpr fun e he => by simp [hnot e he]
    have hgone : s.queue.filter (fun e => e.acknowledges o c && !e.onLine) = [] :=
      List.filter_eq_nil_iff.mpr fun e he => by simp [hnot e he]
    have hsame : s.queue.map (fun e => if e.acknowledges o c then { e with withdraw := true } else e) = s.queue :=
      (List.map_congr_left fun e he => by simp [hnot e he]).trans (List.map_id' _)
    rw [hkept, hgone, hsame]
    rfl
  · obtain ⟨hmem, _⟩ := find?_acknowledges hfind
    have honly (f : QueueEntry) (hf : f ∈ s.queue) (hack : f.acknowledges o c = true) : f.onLine = true := by
      rw [h.eq_of_slot hf hmem ((h.acknowledges_iff_slot hfind hf).mp hack), hline]
    have hkept : s.queue.filter (fun e => !e.acknowledges o c || e.onLine) = s.queue := by
      refine List.filter_eq_self.mpr fun f hf => ?_
      cases hack : f.acknowledges o c
      · rfl
      · simp [honly f hf hack]
    have hgone : s.queue.filter (fun e => e.acknowledges o c && !e.onLine) = [] := by
      refine List.filter_eq_nil_iff.mpr fun f hf => ?_
      cases hack : f.acknowledges o c
      · simp
      · simp [honly f hf hack]
    have hsame : updateSlot e.slot (fun e => { e with withdraw := true }) s.queue =
        s.queue.map (fun f => if f.acknowledges o c then { f with withdraw := true } else f) := by
      refine List.map_congr_left fun f hf => ?_
      by_cases hslot : f.slot = e.slot
      · rw [if_pos hslot, if_pos ((h.acknowledges_iff_slot hfind hf).mpr hslot)]
      · rw [if_neg hslot, if_neg fun hack => hslot ((h.acknowledges_iff_slot hfind hf).mp hack)]
    rw [hkept, hgone, hsame]
    rfl
  · obtain ⟨hmem, htarget⟩ := find?_acknowledges hfind
    have hack : e.acknowledges o c = true := (e.acknowledges_iff o c).mpr htarget
    have hkept : s.queue.filter (fun e => !e.acknowledges o c || e.onLine) = freeSlot e.slot s.queue := by
      refine List.filter_congr fun f hf => ?_
      by_cases hslot : f.slot = e.slot
      · obtain rfl := h.eq_of_slot hf hmem hslot
        simp [hack, hoff]
      · have hnot : f.acknowledges o c = false :=
          Bool.eq_false_iff.mpr fun hack => hslot ((h.acknowledges_iff_slot hfind hf).mp hack)
        simp [hnot, hslot]
    have hgone : s.queue.filter (fun e => e.acknowledges o c && !e.onLine) = [e] := by
      have hone : s.queue.filter (fun e => e.acknowledges o c && !e.onLine) = s.queue.filter (· == e) := by
        refine List.filter_congr fun f hf => ?_
        by_cases hfe : f = e
        · subst hfe; simp [hack, hoff]
        · have hnot : f.acknowledges o c = false := Bool.eq_false_iff.mpr fun hack =>
            hfe (h.eq_of_slot hf hmem ((h.acknowledges_iff_slot hfind hf).mp hack))
          simp [hnot, hfe]
      rw [hone, List.filter_beq, List.count_eq_one_of_mem (List.Nodup.of_map _ h.slots) hmem]
      rfl
    have hsame : (freeSlot e.slot s.queue).map (fun f => if f.acknowledges o c then { f with withdraw := true } else f) =
        freeSlot e.slot s.queue := by
      refine (List.map_congr_left fun f hf => if_neg fun hack => ?_).trans (List.map_id' _)
      obtain ⟨hf, hslot⟩ := mem_freeSlot.mp hf
      exact hslot ((h.acknowledges_iff_slot hfind hf).mp hack)
    rw [hkept, hgone, hsame, State.writeSuperseded_eq, List.flatMap_singleton]
    rfl

/-! ### Several keys -/

/-- What is left of an entry when keys go stale. -/
def QueueEntry.afterStale (keys : List (StationId × Channel)) (e : QueueEntry) : Option QueueEntry :=
  if e.staleFor keys then if e.onLine then some { e with withdraw := true } else none else some e

theorem queueAfterStale_eq (keys : List (StationId × Channel)) (q : List QueueEntry) :
    queueAfterStale keys q = q.filterMap (·.afterStale keys) := by
  unfold queueAfterStale
  rw [← List.filterMap_eq_map, List.filterMap_filter]
  refine List.filterMap_congr fun e _ => ?_
  cases hstale : e.staleFor keys <;> cases hline : e.onLine <;> simp [QueueEntry.afterStale, hstale, hline]

theorem QueueEntry.afterStale_cons (k : StationId × Channel) (ks : List (StationId × Channel)) (e : QueueEntry) :
    e.afterStale (k :: ks) = (e.afterStale [k]).bind (·.afterStale ks) := by
  have hwithdraw : QueueEntry.staleFor ks { e with withdraw := true } = e.staleFor ks := rfl
  have hline : QueueEntry.onLine { e with withdraw := true } = e.onLine := rfl
  unfold QueueEntry.afterStale
  rw [QueueEntry.staleFor_cons, QueueEntry.staleFor_singleton]
  cases hk : e.acknowledges k.1 k.2 <;> cases hks : e.staleFor ks <;> cases hl : e.onLine <;>
    simp [hks, hl, hwithdraw, hline]

/-- Keys that go stale one after another. -/
theorem queueAfterStale_cons (k : StationId × Channel) (ks : List (StationId × Channel)) (q : List QueueEntry) :
    queueAfterStale (k :: ks) q = queueAfterStale ks (queueAfterStale [k] q) := by
  simp only [queueAfterStale_eq, List.filterMap_filterMap, QueueEntry.afterStale_cons k ks]

/-- What one key made stale takes nothing from the records of another. -/
theorem staleRecords_after {k : StationId × Channel} {ks : List (StationId × Channel)} (h : k ∉ ks) (q : List QueueEntry) :
    staleRecords ks (queueAfterStale [k] q) = staleRecords ks q := by
  refine List.flatMap_congr fun l hl => ?_
  have hne : l ≠ k := fun heq => h (heq ▸ hl)
  have hkept (e : QueueEntry) : (e.afterStale [k]).filter (fun e => e.acknowledges l.1 l.2 && !e.onLine) =
      Option.guard (fun e => e.acknowledges l.1 l.2 && !e.onLine) e := by
    have hkl : e.acknowledges l.1 l.2 = true → e.acknowledges k.1 k.2 = false := fun hack => by
      refine Bool.eq_false_iff.mpr fun hack' => hne ?_
      exact Option.some.inj (((e.acknowledges_iff l.1 l.2).mp hack).symm.trans ((e.acknowledges_iff k.1 k.2).mp hack'))
    have hline : QueueEntry.onLine { e with withdraw := true } = e.onLine := rfl
    unfold QueueEntry.afterStale
    rw [QueueEntry.staleFor_singleton]
    cases hk : e.acknowledges k.1 k.2
    · simp [Option.guard, Option.filter]
    · have hl : e.acknowledges l.1 l.2 = false := Bool.eq_false_iff.mpr fun hack => by simp [hkl hack] at hk
      cases ho : e.onLine <;> simp [Option.guard, Option.filter, hl, ho, hline]
  rw [queueAfterStale_eq, List.filter_filterMap, List.filterMap_congr fun e _ => hkept e, List.filterMap_eq_filter]

/-- The ACK entries of several keys go stale (R94; log entry 10). -/
theorem State.makeStaleAll_eq {s : State} (h : QueueOk s.id s.queue) {keys : List (StationId × Channel)} (hk : keys.Nodup) :
    s.makeStaleAll keys = { s.writeAll (staleRecords keys s.queue) with queue := queueAfterStale keys s.queue } := by
  induction keys generalizing s with
  | nil => rw [queueAfterStale_nil, staleRecords_nil]; rfl
  | cons k ks ih =>
    obtain ⟨hnew, hks⟩ := List.nodup_cons.mp hk
    have hone : s.makeStale k.1 k.2 = { s.writeAll (staleRecords [k] s.queue) with queue := queueAfterStale [k] s.queue } :=
      State.makeStale_eq h k.1 k.2
    have hok : QueueOk (s.makeStale k.1 k.2).id (s.makeStale k.1 k.2).queue := by
      rw [(s.makeStale_reach k.1 k.2).id]
      exact (s.makeStale_calm s.id k.1 k.2).ok h
    have hrest : s.makeStaleAll (k :: ks) = (s.makeStale k.1 k.2).makeStaleAll ks := rfl
    have hrecords : staleRecords (k :: ks) s.queue = staleRecords [k] s.queue ++ staleRecords ks s.queue := by
      simp [staleRecords]
    rw [hrest, ih hok hks, hone, hrecords, queueAfterStale_cons k ks s.queue]
    simp only [State.writeAll, Feed.recordAll_append, staleRecords_after hnew]

/-! ### Entries that leave the table (R49, R50) -/

/-- The record of an entry removed as it stands. -/
def Entry.removedBody (reason : RemovalReason) (e : Entry) : FeedBody :=
  .entryRemoved e.origin e.channel e.level e.seq reason e.ackedBy

/-- A remote entry removed changes the table and the feed alone. -/
theorem State.removeEntry_remote {e : Entry} {s : State} (h : e.origin ≠ s.id) (l : Level) (q : Seq) (r : RemovalReason)
    (k : Option StationId) :
    s.removeEntry e l q r k =
      (s.dropEntry e.origin e.channel).write (.entryRemoved e.origin e.channel l q r k) false := by
  rw [State.removeEntry, State.handToAnnunciation, if_neg]
  exact h

/-- Remote entries removed one after another. -/
theorem State.removeAll_eq {s : State} {es : List Entry} (h : ∀ e ∈ es, e.origin ≠ s.id) (r : RemovalReason) :
    s.removeAll es r =
      { s.writeAll (es.map (Entry.removedBody r)) with
        table := { s.table with
          entries := s.table.entries.filter (fun f => es.all (fun e => !f.hasKey e.origin e.channel))
          generation := s.table.generation + BitVec.ofNat 16 es.length } } := by
  induction es generalizing s with
  | nil =>
    have hall : s.table.entries.filter (fun f => ([] : List Entry).all (fun e => !f.hasKey e.origin e.channel)) =
        s.table.entries := List.filter_eq_self.mpr fun _ _ => rfl
    rw [hall]
    simp [State.removeAll, State.writeAll]
  | cons e es ih =>
    have hone := State.removeEntry_remote (h e List.mem_cons_self) e.level e.seq r e.ackedBy
    have hrest : s.removeAll (e :: es) r = (s.removeEntry e e.level e.seq r e.ackedBy).removeAll es r := rfl
    have hremote : ∀ f ∈ es, f.origin ≠ ((s.dropEntry e.origin e.channel).write
        (.entryRemoved e.origin e.channel e.level e.seq r e.ackedBy) false).id := fun f hf => h f (List.mem_cons_of_mem e hf)
    rw [hrest, hone, ih hremote]
    have hgen : s.table.generation + 1 + BitVec.ofNat 16 es.length = s.table.generation + BitVec.ofNat 16 (es.length + 1) := by
      rw [BitVec.ofNat_add, BitVec.add_assoc, BitVec.add_comm 1]
      rfl
    simp only [State.writeAll, State.write, State.dropEntry, Machine.dropEntry, List.filter_filter, List.length_cons, hgen,
      List.all_cons, List.map_cons, Feed.recordAll_cons, Entry.removedBody, Bool.and_comm]

/-- The entries of one origin are those with one of their keys. -/
theorem filter_notOfOrigin (t : Table) (o : StationId) :
    t.entries.filter (fun f => (t.ofOrigin o).all (fun e => !f.hasKey e.origin e.channel)) =
      t.entries.filter (fun f => decide (f.origin ≠ o)) := by
  refine List.filter_congr fun f hf => ?_
  rw [Bool.eq_iff_iff, List.all_eq_true, decide_eq_true_iff]
  refine ⟨fun h ho => ?_, fun h e he => ?_⟩
  · have := h f (Table.mem_ofOrigin.mpr ⟨hf, ho⟩)
    rw [Entry.hasKey_self] at this
    cases this
  · rw [Entry.hasKey_eq_decide, Bool.not_eq_true', decide_eq_false_iff_not]
    exact fun ⟨ho, _⟩ => h (ho.trans (Table.mem_ofOrigin.mp he).2)

/-- All the entries of another origin removed (R59, R66). -/
theorem State.removeOrigin_eq {s : State} {o : StationId} (h : o ≠ s.id) (r : RemovalReason) :
    s.removeAll (s.table.ofOrigin o) r =
      { s.writeAll ((s.table.ofOrigin o).map (Entry.removedBody r)) with
        table := { s.table with
          entries := s.table.entries.filter (fun f => decide (f.origin ≠ o))
          generation := s.table.generation + BitVec.ofNat 16 (s.table.ofOrigin o).length } } := by
  rw [State.removeAll_eq (fun e he => (Table.mem_ofOrigin.mp he).2 ▸ h), filter_notOfOrigin]

/-- The keys of a table in key order are distinct. -/
theorem keysOf_nodup {es : List Entry} (h : es.Pairwise (fun a b => a.index < b.index)) : (keysOf es).Nodup := by
  rw [keysOf, List.Nodup, List.pairwise_map]
  exact h.imp fun hlt heq => by
    obtain ⟨ho, hc⟩ := Prod.mk.inj heq
    rw [Entry.index, Entry.index, ho, hc] at hlt
    exact Nat.lt_irrefl _ hlt

end Sys2Proof.Machine
end

section
/-! PROOFS. What one change of the table does to what is found in it, to the feed and to the own contribution, and what the staging
of a channel's notice does to the queue (chapters 03 and 04). -/

namespace Sys2Proof.Machine

/-! ### What is found -/

theorem State.find_addEntry {s : State} {e : Entry} (h : s.table.find e.origin e.channel = none) (o : StationId) (c : Channel) :
    (s.addEntry e).table.find o c = if o = e.origin ∧ c = e.channel then some e else s.table.find o c := by
  rw [State.addEntry_table, Table.find, find?_insertEntry _ fun hkey => ?_]
  · rw [Entry.hasKey_eq_decide]
    by_cases hk : o = e.origin ∧ c = e.channel
    · rw [if_pos hk, if_pos (by simp [hk])]
    · rw [if_neg hk, if_neg (by simpa using fun ho hc => hk ⟨ho.symm, hc.symm⟩)]
      rfl
  · rw [Entry.hasKey_eq_decide, decide_eq_true_eq] at hkey
    rw [← hkey.1, ← hkey.2]
    exact h

theorem find_replaced {t u : Table} {e f : Entry} (h : t.find e.origin e.channel = some f)
    (hu : u.entries = replaceEntry e t.entries) (o : StationId) (c : Channel) :
    u.find o c = if o = e.origin ∧ c = e.channel then some e else t.find o c := by
  rw [Table.find, hu]
  by_cases hk : o = e.origin ∧ c = e.channel
  · rw [if_pos hk, hk.1, hk.2]
    exact find?_replaceEntry_same h
  · rw [if_neg hk]
    exact find?_replaceEntry_ne hk _

theorem State.find_changeEntry {s : State} {e f : Entry} (h : s.table.find e.origin e.channel = some f) (o : StationId)
    (c : Channel) : (s.changeEntry e).table.find o c = if o = e.origin ∧ c = e.channel then some e else s.table.find o c :=
  find_replaced h (by rw [State.changeEntry_table]) o c

theorem find_dropped {t u : Table} {o : StationId} {c : Channel} (hu : u.entries = Machine.dropEntry o c t.entries)
    (o' : StationId) (c' : Channel) : u.find o' c' = if o' = o ∧ c' = c then none else t.find o' c' := by
  rw [Table.find, hu]
  by_cases hk : o' = o ∧ c' = c
  · rw [if_pos hk, hk.1, hk.2]
    exact find?_dropEntry_same o c _
  · rw [if_neg hk]
    exact find?_dropEntry_ne hk _

theorem State.find_removeEntry (s : State) (e : Entry) (l : Level) (q : Seq) (r : RemovalReason) (k : Option StationId)
    (o : StationId) (c : Channel) :
    (s.removeEntry e l q r k).table.find o c = if o = e.origin ∧ c = e.channel then none else s.table.find o c :=
  find_dropped (by rw [State.removeEntry_table]) o c

/-! ### The records, and the own contribution -/

theorem State.addEntry_feed (e : Entry) (s : State) :
    (s.addEntry e).feed = s.feed.arrive s.image.watermark s.line.round e.urgent
      (.entryAdded e.origin e.channel e.level e.seq e.active e.ackedBy) := by
  simp [State.addEntry]

theorem State.changeEntry_feed (e : Entry) (s : State) :
    (s.changeEntry e).feed = s.feed.arrive s.image.watermark s.line.round e.urgent
      (.entryChanged e.origin e.channel e.level e.seq e.active e.ackedBy) := by
  simp [State.changeEntry]

theorem State.removeEntry_feed (e : Entry) (l : Level) (q : Seq) (r : RemovalReason) (k : Option StationId) (s : State) :
    (s.removeEntry e l q r k).feed = s.feed.arrive s.image.watermark s.line.round false
      (.entryRemoved e.origin e.channel l q r k) := by
  simp [State.removeEntry]

/-- The own contribution is that of the table, and ANN_LINK stays. -/
def State.HandedOn (s t : State) : Prop := t.ann.own = ownContribution s.id t.table.entries ∧ t.ann.link = s.ann.link

theorem State.addEntry_handedOn {e : Entry} {s : State} (h : e.origin = s.id) : s.HandedOn (s.addEntry e) := by
  simp [State.HandedOn, State.addEntry, State.handToAnnunciation, h]

theorem State.changeEntry_handedOn {e : Entry} {s : State} (h : e.origin = s.id) : s.HandedOn (s.changeEntry e) := by
  simp [State.HandedOn, State.changeEntry, State.handToAnnunciation, h]

theorem State.removeEntry_handedOn {e : Entry} {s : State} (h : e.origin = s.id) (l : Level) (q : Seq) (r : RemovalReason)
    (k : Option StationId) : s.HandedOn (s.removeEntry e l q r k) := by
  simp [State.HandedOn, State.removeEntry, State.handToAnnunciation, h]

/-- The level and the seq that a removal with reason CLEARED shows are those of the entry or those announced (log entry 9). -/
theorem State.clearEntry_eq (e : Entry) (r : Record) (s : State) :
    ∃ l q, (l = e.level ∨ l = r.level) ∧ (q = e.seq ∨ q = r.seq) ∧
      s.clearEntry e r = s.removeEntry e l q .cleared r.ackedBy := by
  refine ⟨_, _, ?_, ?_, rfl⟩
  · cases Config.removalShowsAnnouncedLevel
    · exact .inl rfl
    · exact .inr rfl
  · cases Config.removalShowsAnnouncedSeq
    · exact .inl rfl
    · exact .inr rfl

/-! ### A notice staged as a change (R74) -/

theorem slotEntry_updateSlot {k : Fin 15} {f : QueueEntry → QueueEntry} (hf : ∀ e, (f e).slot = e.slot) (q : List QueueEntry) :
    slotEntry k (updateSlot k f q) = (slotEntry k q).map f := by
  induction q with
  | nil => rfl
  | cons e q ih =>
    have hlist : slotEntry k (updateSlot k f (e :: q)) = slotEntry k ((if e.slot = k then f e else e) :: updateSlot k f q) := rfl
    rw [hlist]
    simp only [slotEntry, List.find?_cons] at ih ⊢
    by_cases h : e.slot = k
    · simp [h, hf]
    · simp only [if_neg h, decide_eq_false h]
      exact ih

theorem slotEntry_append (k : Fin 15) (p q : List QueueEntry) : slotEntry k (p ++ q) = (slotEntry k p).or (slotEntry k q) :=
  List.find?_append

/-- The entry of a channel after its notice is staged as a change, from the entry that its slot held. -/
def stagedEntry (c : Channel) : Option QueueEntry → QueueEntry
  | none => QueueEntry.fresh (channelSlot c) (.channel c false)
  | some e => if e.onLine then { e with restage := true, notice := .channel c false }
    else { e.startOver with notice := .channel c false }

theorem slotEntry_stageChange (c : Channel) (q : List QueueEntry) :
    slotEntry (channelSlot c) (stageChange c q) = some (stagedEntry c (slotEntry (channelSlot c) q)) := by
  unfold stageChange
  cases h : slotEntry (channelSlot c) q with
  | none =>
    rw [slotEntry_append, h]
    simp [slotEntry, stagedEntry, QueueEntry.fresh]
  | some e =>
    rw [slotEntry_updateSlot, h]
    · rfl
    · intro e
      split <;> rfl

/-- The entries of a queue outside a slot. -/
def outsideSlot (k : Fin 15) (q : List QueueEntry) : List QueueEntry := q.filter (fun e => decide (e.slot ≠ k))

theorem outsideSlot_updateSlot {k : Fin 15} {f : QueueEntry → QueueEntry} (hf : ∀ e, (f e).slot = e.slot)
    (q : List QueueEntry) : outsideSlot k (updateSlot k f q) = outsideSlot k q := by
  induction q with
  | nil => rfl
  | cons e q ih =>
    have hlist : outsideSlot k (updateSlot k f (e :: q)) = outsideSlot k ((if e.slot = k then f e else e) :: updateSlot k f q) := rfl
    rw [hlist]
    simp only [outsideSlot, List.filter_cons, ne_eq, decide_not] at ih ⊢
    by_cases h : e.slot = k
    · simp [h, hf, ih]
    · simp [h, ih]

theorem outsideSlot_stageChange (c : Channel) (q : List QueueEntry) :
    outsideSlot (channelSlot c) (stageChange c q) = outsideSlot (channelSlot c) q := by
  unfold stageChange
  split
  · simp [outsideSlot, List.filter_append, QueueEntry.fresh]
  · refine outsideSlot_updateSlot (fun e => ?_) q
    split <;> rfl

/-- The entry of a channel slot is no ACK entry, and stays when ACK entries go stale. -/
theorem slotEntry_queueAfterStale {id : StationId} {q : List QueueEntry} (h : QueueOk id q) (c : Channel)
    (keys : List (StationId × Channel)) :
    slotEntry (channelSlot c) (queueAfterStale keys q) = slotEntry (channelSlot c) q := by
  have hsame (e : QueueEntry) (he : e ∈ q) (hs : e.slot = channelSlot c) : e.staleFor keys = false := by
    obtain ⟨b, hb⟩ := QueueEntry.notice_of_channelSlot (h.each e he).1 hs
    rw [QueueEntry.staleFor, List.any_eq_false]
    intro k _
    simp [QueueEntry.acknowledges, hb]
  clear h
  rw [queueAfterStale_eq]
  induction q with
  | nil => rfl
  | cons e q ih =>
    have hrest := ih fun f hf => hsame f (List.mem_cons_of_mem e hf)
    by_cases hs : e.slot = channelSlot c
    · have hkept : e.afterStale keys = some e := if_neg (by rw [hsame e List.mem_cons_self hs]; exact Bool.false_ne_true)
      rw [List.filterMap_cons_some hkept]
      simp [slotEntry, hs]
    · have hpast : slotEntry (channelSlot c) (e :: q) = slotEntry (channelSlot c) q := by
        simp only [slotEntry, List.find?_cons, decide_eq_false hs]
      rw [hpast, ← hrest]
      cases ha : e.afterStale keys with
      | none => rw [List.filterMap_cons_none ha]
      | some f =>
        have hf : f.slot = e.slot := by
          unfold QueueEntry.afterStale at ha
          split_ifs at ha <;> cases ha <;> rfl
        rw [List.filterMap_cons_some ha]
        simp only [slotEntry, List.find?_cons, hf, decide_eq_false hs]

/-- The own-origin entry of a channel has changed: its ACK entry goes stale, and the channel's notice is staged as a change. -/
theorem State.staleThenStaged {v : State} (h : QueueOk v.id v.queue) (c : Channel) {t : State}
    (ht : t = (v.makeStale v.id c).staged c) :
    t.table = v.table ∧ t.monitors = v.monitors ∧ t.ann = v.ann ∧
      t.feed = v.feed.recordAll v.image.watermark v.line.round (staleRecords [(v.id, c)] v.queue) ∧
      outsideSlot (channelSlot c) t.queue = outsideSlot (channelSlot c) (queueAfterStale [(v.id, c)] v.queue) ∧
      slotEntry (channelSlot c) t.queue = some (stagedEntry c (slotEntry (channelSlot c) v.queue)) := by
  rw [State.makeStale_eq h] at ht
  subst ht
  refine ⟨rfl, rfl, rfl, rfl, outsideSlot_stageChange c _, ?_⟩
  rw [← slotEntry_queueAfterStale h c [(v.id, c)]]
  exact slotEntry_stageChange c _

end Sys2Proof.Machine
end

section
/-! PROOFS. What an adoption and a shelving make of the own-origin entry, the queue and the feed (R36, R51, R74): O31, O39. -/

namespace Sys2Proof.Machine

/-- What a change of the own-origin entry of a channel leaves: `now` is the entry there, `first` the feed after the table's record,
and `keys` the keys whose ACK entries go stale. -/
structure State.OwnEntryNow (s t : State) (c : Channel) (now : Option Entry) (first : Feed)
    (keys : List (StationId × Channel)) : Prop where
  find : ∀ o d, t.table.find o d = if o = s.id ∧ d = c then now else s.table.find o d
  generation : t.table.generation = s.table.generation + 1
  drops : t.table.drops = s.table.drops
  handedOn : s.HandedOn t
  feed : t.feed = first.recordAll s.image.watermark s.line.round (staleRecords keys s.queue)
  others : outsideSlot (channelSlot c) t.queue = outsideSlot (channelSlot c) (queueAfterStale keys s.queue)
  staged : slotEntry (channelSlot c) t.queue = some (stagedEntry c (slotEntry (channelSlot c) s.queue))

section
variable {s : State} {c : Channel}

theorem State.ownEntry_created {e : Entry} (hnone : s.table.find s.id c = none) (ho : e.origin = s.id) (hc : e.channel = c) :
    s.OwnEntryNow ((s.addEntry e).staged c) c (some e) (s.addEntry e).feed [] where
  find o d := by
    rw [← hc, ← ho] at hnone ⊢
    exact State.find_addEntry hnone o d
  generation := by simp only [State.staged, State.addEntry_table]
  drops := by simp only [State.staged, State.addEntry_table]
  handedOn := State.addEntry_handedOn ho
  feed := rfl
  others := by
    rw [queueAfterStale_nil, State.staged, outsideSlot_stageChange, State.addEntry_queue]
  staged := by rw [State.staged, slotEntry_stageChange, State.addEntry_queue]

theorem State.ownEntry_changed (hq : QueueOk s.id s.queue) {e f : Entry} (hf : s.table.find s.id c = some f)
    (ho : e.origin = s.id) (hc : e.channel = c) :
    s.OwnEntryNow (((s.changeEntry e).makeStale s.id c).staged c) c (some e) (s.changeEntry e).feed [(s.id, c)] := by
  have hqueue : QueueOk (s.changeEntry e).id (s.changeEntry e).queue := by simpa using hq
  obtain ⟨htable, _, hann, hfeed, hothers, hstaged⟩ := State.staleThenStaged hqueue c rfl
  simp only [State.changeEntry_id, State.changeEntry_queue, State.changeEntry_image, State.changeEntry_line] at *
  refine ⟨fun o d => ?_, by rw [htable, State.changeEntry_table], by rw [htable, State.changeEntry_table], ?_, hfeed, hothers,
    hstaged⟩
  · rw [htable, ← hc, ← ho]
    exact State.find_changeEntry (by rw [ho, hc]; exact hf) o d
  · rw [State.HandedOn, htable, hann]
    exact State.changeEntry_handedOn ho

theorem State.ownEntry_removed (hq : QueueOk s.id s.queue) {e : Entry} (ho : e.origin = s.id) (hc : e.channel = c) (l : Level)
    (q : Seq) (r : RemovalReason) (k : Option StationId) :
    s.OwnEntryNow (((s.removeEntry e l q r k).makeStale s.id c).staged c) c none (s.removeEntry e l q r k).feed [(s.id, c)] := by
  have hqueue : QueueOk (s.removeEntry e l q r k).id (s.removeEntry e l q r k).queue := by simpa using hq
  obtain ⟨htable, _, hann, hfeed, hothers, hstaged⟩ := State.staleThenStaged hqueue c rfl
  simp only [State.removeEntry_id, State.removeEntry_queue, State.removeEntry_image, State.removeEntry_line] at *
  refine ⟨fun o d => ?_, by rw [htable, State.removeEntry_table], by rw [htable, State.removeEntry_table], ?_, hfeed, hothers,
    hstaged⟩
  · rw [htable, ← hc, ← ho]
    exact State.find_removeEntry s e l q r k o d
  · rw [State.HandedOn, htable, hann]
    exact State.removeEntry_handedOn ho l q r k

end

/-! ### Adoptions (R51) -/

/-- A channel without an own-origin entry is at NORMAL; its adoption is of another level, and drops any acknowledgement. -/
theorem Monitor.Matches.normal_of_none {m : Monitor} {id : StationId} {c : Channel} {t : Table} (h : m.Matches id c t.entries)
    (hnone : t.find id c = none) : m.level = .normal := by
  obtain ⟨hactive, _, hheld, _⟩ := h
  by_contra hne
  obtain ⟨e, he, hkey⟩ := hheld (by rw [hactive, decide_eq_true hne])
  rw [Table.find_none.mp hnone e he] at hkey
  cases hkey

/-- What a monitor holds is read by none of it. -/
theorem State.OwnEntryNow.of_setMonitor {s t : State} {c d : Channel} {m : Monitor} {now : Option Entry} {first : Feed}
    {keys : List (StationId × Channel)} (h : (s.setMonitor d m).OwnEntryNow t c now first keys) :
    s.OwnEntryNow t c now first keys :=
  ⟨h.find, h.generation, h.drops, h.handedOn, h.feed, h.others, h.staged⟩

/-- An adoption creates, removes or changes the own-origin entry, by whether it is held and what the record says (R51). -/
theorem State.adoptFrom_ownEntry {s : State} (hq : QueueOk s.id s.queue) (m : Monitor) (c : Channel) (y : Level)
    (cause : FaultCause) {t : State} (ht : t = s.adoptFrom m c y cause) {r : Record} (hr : r = (m.adopting y cause).record) :
    (s.table.find s.id c = none ∧ r.active = true ∧
        s.OwnEntryNow t c (some (Entry.ofRecord s.id c r false s.line.round))
          (s.feed.arrive s.image.watermark s.line.round (Entry.ofRecord s.id c r false s.line.round).urgent
            (.entryAdded s.id c r.level r.seq r.active r.ackedBy)) []) ∨
      (s.table.find s.id c = none ∧ r.active = false) ∨
      (∃ e, s.table.find s.id c = some e ∧ r.active = false ∧ r.ackedBy.isSome = true ∧
        ∃ l q, (l = e.level ∨ l = r.level) ∧ (q = e.seq ∨ q = r.seq) ∧
          s.OwnEntryNow t c none
            (s.feed.arrive s.image.watermark s.line.round false (.entryRemoved s.id c l q .cleared r.ackedBy)) [(s.id, c)]) ∨
      ∃ e, s.table.find s.id c = some e ∧ (r.active = true ∨ r.ackedBy = none) ∧
        s.OwnEntryNow t c (some (e.overwrite r s.line.round))
          (s.feed.arrive s.image.watermark s.line.round (e.overwrite r s.line.round).urgent
            (.entryChanged s.id c r.level r.seq r.active r.ackedBy)) [(s.id, c)] := by
  subst ht hr
  rw [State.adoptFrom]
  generalize (m.adopting y cause).record = r
  obtain ⟨hnone, hactive, he⟩ | ⟨hnone, hinactive, he⟩ | ⟨e, hfind, hinactive, hacked, he⟩ | ⟨e, hfind, hkept, he⟩ :=
    (s.setMonitor c (m.adopting y cause)).adoptEntry_cases c r <;> rw [he]
  · refine .inl ⟨hnone, hactive, ?_⟩
    have hnow := State.ownEntry_created (e := Entry.ofRecord s.id c r false s.line.round) hnone rfl rfl
    rw [State.addEntry_feed] at hnow
    exact hnow.of_setMonitor
  · exact .inr (.inl ⟨hnone, hinactive⟩)
  · obtain ⟨_, ho, hc⟩ := Table.find_some hfind
    obtain ⟨l, q, hl, hseq, hclear⟩ := State.clearEntry_eq e r (s.setMonitor c (m.adopting y cause))
    refine .inr (.inr (.inl ⟨e, hfind, hinactive, hacked, l, q, hl, hseq, ?_⟩))
    have hnow := State.ownEntry_removed (s := s.setMonitor c (m.adopting y cause)) hq ho hc l q .cleared r.ackedBy
    rw [State.removeEntry_feed, ho, hc] at hnow
    rw [hclear]
    exact hnow.of_setMonitor
  · obtain ⟨_, ho, hc⟩ := Table.find_some hfind
    refine .inr (.inr (.inr ⟨e, hfind, hkept, ?_⟩))
    have hnow := State.ownEntry_changed (s := s.setMonitor c (m.adopting y cause)) hq
      (e := e.overwrite r s.line.round) hfind ho hc
    rw [State.changeEntry_feed] at hnow
    simp only [Entry.overwrite, ho, hc] at hnow ⊢
    exact hnow.of_setMonitor

/-- Nor what the sample port holds. -/
theorem State.OwnEntryNow.of_samplePort {s t : State} {c : Channel} {pin : Bool} {a : Assembler} {now : Option Entry}
    {first : Feed} {keys : List (StationId × Channel)}
    (h : State.OwnEntryNow { s with cfsPin := pin, assembler := a } t c now first keys) : s.OwnEntryNow t c now first keys :=
  ⟨h.find, h.generation, h.drops, h.handedOn, h.feed, h.others, h.staged⟩

section
variable {s t : State} {c : Channel} {now : Option Entry} {first : Feed} {keys : List (StationId × Channel)}

theorem State.OwnEntryNow.here (h : s.OwnEntryNow t c now first keys) : t.table.find s.id c = now := by
  rw [h.find, if_pos ⟨rfl, rfl⟩]

theorem State.OwnEntryNow.elsewhere (h : s.OwnEntryNow t c now first keys) (o : StationId) (d : Channel)
    (hd : ¬(o = s.id ∧ d = c)) : t.table.find o d = s.table.find o d := by
  rw [h.find, if_neg hd]

theorem State.OwnEntryNow.staged_eq (h : s.OwnEntryNow t c now first keys) :
    slotEntry (channelSlot c) t.queue = some
      (match slotEntry (channelSlot c) s.queue with
      | none =>
        { slot := channelSlot c, notice := .channel c false, state := .waiting, restage := false, withdraw := false
          attempts := 0, receipts := 0 }
      | some q =>
        if q.onLine then { q with restage := true, notice := .channel c false }
        else { q with state := .waiting, attempts := 0, receipts := 0, notice := .channel c false }) := by
  rw [h.staged]
  cases slotEntry (channelSlot c) s.queue <;> rfl

end

/-- Settles O39: the cases of the own-origin entry under an adoption; without an entry the channel is at NORMAL, so that the level
adopted is another one and the record bears no acknowledgement. -/
theorem adoptionReachesTableQueueAndFeed : Obligations.AdoptionReachesTableQueueAndFeed := by
  unfold Obligations.AdoptionReachesTableQueueAndFeed
  intro s command c y cause last timer h hqueue hmonitors
  obtain ⟨u, hu, hexec⟩ := State.adoptionAt_adopts h
  obtain ⟨pin, assembler, rfl⟩ : ∃ p a, u = { s with cfsPin := p, assembler := a } := ⟨_, _, hu⟩
  clear hu
  obtain ⟨_, _, hy, _⟩ := h
  refine ⟨_, hexec, ?_⟩
  clear hexec
  obtain ⟨hok, _⟩ := s.queueSound_iff.mp hqueue
  obtain ⟨hmatch, _⟩ := s.monitorsSound_iff.mp hmonitors c
  have hmonitor := State.monitor_adoptFrom { s.monitor c with lastValue := last, staleTimer := timer } c c y cause
    { s with cfsPin := pin, assembler := assembler }
  rw [if_pos rfl] at hmonitor
  have hcases := State.adoptFrom_ownEntry (s := { s with cfsPin := pin, assembler := assembler }) hok
    { s.monitor c with lastValue := last, staleTimer := timer } c y cause rfl (congrArg Monitor.record hmonitor)
  have hrecord := (congrArg Monitor.record hmonitor).trans (Record.adopt_eq (s.monitor c).record (s.monitor c).level y last)
  generalize State.adoptFrom _ c y cause _ = t at hcases hrecord ⊢
  clear hmonitor
  simp only
  generalize (t.monitor c).record = r at hcases hrecord ⊢
  have hactive : r.active = decide (y ≠ .normal) := by rw [hrecord]
  have hvalue : r.value = last := by rw [hrecord]
  have hlevel (hne : y ≠ .normal) : r.level = y := by rw [hrecord]; exact if_neg hne
  have hfirst (hnone : s.table.find s.id c = none) : y ≠ .normal ∧ r.ackedBy = none := by
    have hnormal := hmatch.normal_of_none hnone
    exact ⟨hnormal ▸ hy, by rw [hrecord]; exact if_pos (.inl hnormal)⟩
  obtain ⟨hnone, _, hnow⟩ | ⟨hnone, hinactive⟩ | ⟨e, hfind, hinactive, hacked, l, q, hl, hseq, hnow⟩ | ⟨e, hfind, hkept, hnow⟩ := hcases
  · obtain ⟨hne, hunacked⟩ := hfirst hnone
    replace hnow := hnow.of_samplePort
    refine ⟨hnow.elsewhere, hnow.generation, hnow.drops, fun _ => ⟨?_, ?_, ?_⟩, fun e hfind => ?_, fun e hfind => ?_,
      hnow.handedOn.1, hnow.handedOn.2, hnow.staged_eq⟩
    · rw [hnow.here, Entry.ofRecord, hactive, hunacked, hvalue, hlevel hne, decide_eq_true hne]
    · rw [hnow.feed, staleRecords_nil, Feed.recordAll_nil, Entry.urgent, Entry.acked, Entry.ofRecord, Entry.severity, hunacked, hlevel hne, hactive,
        decide_eq_true hne, Option.isSome_none, Bool.not_false, Bool.and_true]
    · have hothers := hnow.others
      rw [queueAfterStale_nil] at hothers
      exact hothers
    all_goals exact nomatch hnone.symm.trans hfind
  · obtain ⟨hne, _⟩ := hfirst hnone
    rw [hactive, decide_eq_true hne] at hinactive
    cases hinactive
  · replace hnow := hnow.of_samplePort
    have hnormal : y = .normal := by rw [hactive] at hinactive; simpa using hinactive
    have hsome : r.ackedBy ≠ none := Option.isSome_iff_ne_none.mp hacked
    refine ⟨hnow.elsewhere, hnow.generation, hnow.drops, fun hnone => ?_,
      fun f _ hor => ?_, fun f hf _ _ => ?_, hnow.handedOn.1, hnow.handedOn.2, hnow.staged_eq⟩
    · exact nomatch hnone.symm.trans hfind
    · exact absurd hor (not_or.mpr ⟨not_not.mpr hnormal, hsome⟩)
    · obtain rfl := Option.some.inj (hfind.symm.trans hf)
      exact ⟨hnow.here, ⟨l, q, hl, hseq, hnow.feed⟩, hnow.others⟩
  · replace hnow := hnow.of_samplePort
    refine ⟨hnow.elsewhere, hnow.generation, hnow.drops, fun hnone => ?_,
      fun f hf _ => ?_, fun f _ hnormal hsome => ?_, hnow.handedOn.1, hnow.handedOn.2, hnow.staged_eq⟩
    · exact nomatch hnone.symm.trans hfind
    · obtain rfl := Option.some.inj (hfind.symm.trans hf)
      refine ⟨hnow.here, hnow.feed.trans ?_, hnow.others⟩
      rw [Entry.urgent, Entry.acked, Option.not_isSome]
      rfl
    · rw [hactive, hnormal] at hkept
      exact absurd hkept (not_or.mpr ⟨by decide, hsome⟩)

/-! ### Shelving (R36) -/

theorem serveShelving_found {s : State} (hs : s.station ≠ .setup) {channel : Byte} {c : Channel} (hc : c.val = channel.toNat)
    (flag : Bool) : serveShelving channel flag s = (s.setShelved c flag).done := by
  have hrange : ¬7 < channel.toNat := by have := c.isLt; omega
  rw [serveShelving, if_neg hs, if_neg hrange, Fin.ofNat_eq_of_val hc]

/-- The command of the host port that sets or clears the shelved flag. -/
def shelvingCommand (flag : Bool) : HostCommand := if flag then .shelve else .unshelve

/-- What a shelving answers, from what it is served on the station that has taken it. -/
theorem exec_shelving {s u : State} {flag : Bool} {channel : Byte} (hopen : s.transactionOpen) {status : Status}
    (hserve : serveShelving channel flag (s.taking (shelvingCommand flag) [channel]) =
      { state := u, status := status, data := [] })
    (hport : u.port = (s.taking (shelvingCommand flag) [channel]).port) :
    exec (if flag then .shelve channel else .unshelve channel) s =
      .next (u.answered (if flag then .shelve else .unshelve) [channel] [status.code]) := by
  cases flag <;> exact State.request_served rfl hopen rfl hserve hport rfl

theorem State.setShelved_ownEntry {s : State} (hq : QueueOk s.id s.queue) {c : Channel} {flag : Bool}
    (hflag : (s.monitor c).record.shelved ≠ flag) {e : Entry} (hfind : s.table.find s.id c = some e) :
    (s.setShelved c flag).monitors = (s.setMonitor c ((s.monitor c).shelving flag)).monitors ∧
      s.OwnEntryNow (s.setShelved c flag) c (some (e.shelving ((s.monitor c).shelving flag).record s.line.round))
        (s.feed.arrive s.image.watermark s.line.round e.urgent
          (.entryChanged s.id c e.level ((s.monitor c).record.seq + 1) e.active e.ackedBy)) [(s.id, c)] := by
  obtain ⟨h, _⟩ | ⟨_, h, _⟩ | ⟨f, _, hf, ht⟩ := s.setShelved_cases c flag
  · exact absurd h hflag
  · exact nomatch h.symm.trans hfind
  · obtain rfl := Option.some.inj (hfind.symm.trans hf)
    obtain ⟨_, ho, hc⟩ := Table.find_some hfind
    have hnow := State.ownEntry_changed (s := s.setMonitor c ((s.monitor c).shelving flag)) hq
      (e := e.shelving ((s.monitor c).shelving flag).record s.line.round) hfind ho hc
    rw [State.changeEntry_feed] at hnow
    rw [ht]
    refine ⟨by simp [State.staged], ?_⟩
    have hmonitor := hnow.of_setMonitor
    simp only [Entry.shelving, ho, hc] at hmonitor ⊢
    exact hmonitor

/-- Settles O31: the checks, and then the cases of the flag and the own-origin entry. -/
theorem shelvingCountsSeqWithAnOwnEntry : Obligations.ShelvingCountsSeqWithAnOwnEntry := by
  unfold Obligations.ShelvingCountsSeqWithAnOwnEntry
  intro flag channel s hopen
  refine ⟨fun hs => ?_, fun hs hrange => ?_, fun c hs hc => ⟨fun hflag => ?_, fun hflag hnone => ?_, fun e hflag hfind hqueue => ?_⟩⟩
  · exact exec_shelving (u := s.taking (shelvingCommand flag) [channel]) (status := .badState) hopen (if_pos hs) rfl
  · exact exec_shelving (u := s.taking (shelvingCommand flag) [channel]) (status := .badValue) hopen
      ((if_neg hs).trans (if_pos hrange)) rfl
  all_goals have hserve := serveShelving_found (s := s.taking (shelvingCommand flag) [channel]) hs hc flag
  · have hsame : (s.taking (shelvingCommand flag) [channel]).setShelved c flag = s.taking (shelvingCommand flag) [channel] := by
      obtain ⟨_, h⟩ | ⟨h, _⟩ | ⟨_, h, _⟩ := (s.taking (shelvingCommand flag) [channel]).setShelved_cases c flag
      · exact h
      all_goals exact absurd hflag h
    rw [hsame] at hserve
    exact exec_shelving (u := s.taking (shelvingCommand flag) [channel]) (status := .ok) hopen hserve rfl
  · have hset : (s.taking (shelvingCommand flag) [channel]).setShelved c flag = (s.taking (shelvingCommand flag) [channel]).setMonitor c
        { s.monitor c with record := { (s.monitor c).record with shelved := flag } } := by
      obtain ⟨h, _⟩ | ⟨_, _, h⟩ | ⟨_, _, h, _⟩ := (s.taking (shelvingCommand flag) [channel]).setShelved_cases c flag
      · exact absurd h hflag
      · exact h
      · exact nomatch hnone.symm.trans h
    rw [hset] at hserve
    exact exec_shelving (u := (s.taking (shelvingCommand flag) [channel]).setMonitor c
      { s.monitor c with record := { (s.monitor c).record with shelved := flag } }) (status := .ok) hopen hserve rfl
  · obtain ⟨hok, _⟩ := s.queueSound_iff.mp hqueue
    obtain ⟨hmonitors, hnow⟩ := State.setShelved_ownEntry (s := s.taking (shelvingCommand flag) [channel]) hok hflag hfind
    have hreach := State.setShelved_reach c flag (s.taking (shelvingCommand flag) [channel])
    generalize State.setShelved c flag _ = u at hserve hmonitors hnow hreach
    have hexec := exec_shelving (status := .ok) hopen hserve (by rw [hreach.eq])
    have hmonitor (d : Channel) : u.monitor d = if c = d then (s.monitor c).shelving flag else s.monitor d := by
      rw [← State.monitor_setMonitor]
      simp only [State.monitor, hmonitors]
      rfl
    refine ⟨_, hexec, by rw [hreach.eq]; rfl, (hmonitor c).trans (if_pos rfl),
      fun d hd => (hmonitor d).trans (if_neg (Ne.symm hd)), hnow.here, hnow.elsewhere, hnow.generation, hnow.drops,
      hnow.handedOn.1, hnow.handedOn.2, hnow.feed.trans ?_, hnow.others, hnow.staged_eq⟩
    rw [Entry.urgent, Entry.acked, Option.not_isSome]
    rfl

end Sys2Proof.Machine
end

section
/-! PROOFS. Frames of the group line: what is read back of a payload as it was formed (R81, R122 to R127): O53. -/

namespace Sys2Proof.Machine

/-! ### The fields of a frame -/

/-- The three parts of a frame, wherever they come from. -/
theorem frame_parts (key : BitVec 10) (p : BitVec 36) (crc : BitVec 8) :
    (key ++ p ++ crc).extractLsb' 44 10 = key ∧ (key ++ p ++ crc).extractLsb' 8 36 = p ∧
      (key ++ p ++ crc).extractLsb' 0 8 = crc := by
  refine ⟨?_, ?_, ?_⟩ <;> simp (disch := decide) only [BitVec.extractLsb'_append_eq_of_le,
    BitVec.extractLsb'_append_eq_of_add_le, Nat.reduceSub, BitVec.extractLsb'_eq_self]

/-- The fields of an ACK payload (R125). -/
theorem ack_fields (o : BitVec 5) (c : BitVec 3) (q : BitVec 8) (e : BitVec 20) :
    (o ++ c ++ q ++ e).extractLsb' 31 5 = o ∧ (o ++ c ++ q ++ e).extractLsb' 28 3 = c ∧
      (o ++ c ++ q ++ e).extractLsb' 20 8 = q := by
  refine ⟨?_, ?_, ?_⟩ <;> simp (disch := decide) only [BitVec.extractLsb'_append_eq_of_le,
    BitVec.extractLsb'_append_eq_of_add_le, Nat.reduceSub, BitVec.extractLsb'_eq_self]

/-- The fields of a REPLAY payload (R126). -/
theorem replay_fields (g : BitVec 6) (w : BitVec 3) (p : BitVec 14) (e : BitVec 13) :
    (g ++ w ++ p ++ e).extractLsb' 30 6 = g ∧ (g ++ w ++ p ++ e).extractLsb' 27 3 = w ∧
      (g ++ w ++ p ++ e).extractLsb' 13 14 = p := by
  refine ⟨?_, ?_, ?_⟩ <;> simp (disch := decide) only [BitVec.extractLsb'_append_eq_of_le,
    BitVec.extractLsb'_append_eq_of_add_le, Nat.reduceSub, BitVec.extractLsb'_eq_self]

section
variable (c : BitVec 3) (q : BitVec 8) (l : BitVec 3) (active acked : BitVec 1) (k : BitVec 5) (shelved : BitVec 1)
  (v : BitVec 12) (e : BitVec 2)

/-- The number fields of a RAISE, CLEAR or STATE payload (R124). -/
theorem announcement_fields :
    (c ++ q ++ l ++ active ++ acked ++ k ++ shelved ++ v ++ e).extractLsb' 33 3 = c ∧
      (c ++ q ++ l ++ active ++ acked ++ k ++ shelved ++ v ++ e).extractLsb' 25 8 = q ∧
      (c ++ q ++ l ++ active ++ acked ++ k ++ shelved ++ v ++ e).extractLsb' 22 3 = l ∧
      (c ++ q ++ l ++ active ++ acked ++ k ++ shelved ++ v ++ e).extractLsb' 15 5 = k ∧
      (c ++ q ++ l ++ active ++ acked ++ k ++ shelved ++ v ++ e).extractLsb' 2 12 = v := by
  refine ⟨?_, ?_, ?_, ?_, ?_⟩ <;> simp (disch := decide) only [BitVec.extractLsb'_append_eq_of_le,
    BitVec.extractLsb'_append_eq_of_add_le, Nat.reduceSub, BitVec.extractLsb'_eq_self]

/-- The flags of a RAISE, CLEAR or STATE payload (R124). -/
theorem announcement_flags :
    (c ++ q ++ l ++ active ++ acked ++ k ++ shelved ++ v ++ e).getLsbD 21 = active.getLsbD 0 ∧
      (c ++ q ++ l ++ active ++ acked ++ k ++ shelved ++ v ++ e).getLsbD 20 = acked.getLsbD 0 ∧
      (c ++ q ++ l ++ active ++ acked ++ k ++ shelved ++ v ++ e).getLsbD 14 = shelved.getLsbD 0 := by
  simp only [BitVec.getLsbD_append]
  exact ⟨rfl, rfl, rfl⟩

end

theorem Flight.key_values (f : Flight) : f.values.extractLsb' 44 10 = f.key := (frame_parts f.key f.payload f.crc).1

theorem Flight.payload_values (f : Flight) : f.values.extractLsb' 8 36 = f.payload := (frame_parts f.key f.payload f.crc).2.1

theorem Flight.crc_values (f : Flight) : f.values.extractLsb' 0 8 = f.crc := (frame_parts f.key f.payload f.crc).2.2

theorem readAck_ackPayload (o : StationId) (c : Channel) (q : Seq) : readAck (ackPayload o c q) = .ack o c q := by
  obtain ⟨ho, hc, hq⟩ := ack_fields (BitVec.ofNat 5 o.val) (BitVec.ofNat 3 c.val) q (BitVec.allOnes 20)
  have ho' : (Fin.ofNat 32 ((ackPayload o c q).extractLsb' 31 5).toNat : StationId) = o :=
    (congrArg (fun v : BitVec 5 => Fin.ofNat 32 v.toNat) ho).trans (by simp)
  have hc' : (Fin.ofNat 8 ((ackPayload o c q).extractLsb' 28 3).toNat : Channel) = c :=
    (congrArg (fun v : BitVec 3 => Fin.ofNat 8 v.toNat) hc).trans (by simp)
  exact congr (congr (congrArg Frame.ack ho') hc') hq

theorem readReplay_replayPayload (i : Image) :
    readReplay (replayPayload i) =
      .replay (BitVec.ofNat 6 i.groupSize) (BitVec.ofNat 3 i.windows) (BitVec.ofNat 14 i.period) := by
  obtain ⟨hg, hw, hp⟩ := replay_fields (BitVec.ofNat 6 i.groupSize) (BitVec.ofNat 3 i.windows) (BitVec.ofNat 14 i.period)
    (BitVec.allOnes 13)
  exact congr (congr (congrArg Frame.replay hg) hw) hp

theorem Level.ofCode_code (l : Level) : Level.ofCode l.code = some l := by
  cases l <;> rfl

theorem Level.code_lt (l : Level) : l.code < 8 := by
  cases l <;> decide

/-- What is read of a RAISE, CLEAR or STATE payload: each field as it was sent. -/
theorem announcementPayload_read (c : Channel) (r : Record) :
    (announcementPayload c r).extractLsb' 33 3 = BitVec.ofNat 3 c.val ∧
      ((announcementPayload c r).extractLsb' 22 3).toNat = r.level.code ∧
      readRecord (announcementPayload c r) r.level = r := by
  obtain ⟨hc, hq, hl, hk, hv⟩ := announcement_fields (BitVec.ofNat 3 c.val) r.seq (BitVec.ofNat 3 r.level.code)
    (bitField r.active) (bitField r.ackedBy.isSome) (BitVec.ofNat 5 ((r.ackedBy.map (·.val)).getD 31)) (bitField r.shelved)
    r.value 3#2
  obtain ⟨hactive, hacked, hshelved⟩ := announcement_flags (BitVec.ofNat 3 c.val) r.seq (BitVec.ofNat 3 r.level.code)
    (bitField r.active) (bitField r.ackedBy.isSome) (BitVec.ofNat 5 ((r.ackedBy.map (·.val)).getD 31)) (bitField r.shelved)
    r.value 3#2
  have hbit (b : Bool) : (bitField b).getLsbD 0 = b := by cases b <;> rfl
  have hread : readRecord (announcementPayload c r) r.level =
      { seq := r.seq, level := r.level, active := r.active
        ackedBy := if r.ackedBy.isSome then
          some (Fin.ofNat 32 (BitVec.ofNat 5 ((r.ackedBy.map (·.val)).getD 31)).toNat) else none
        shelved := r.shelved, value := r.value } := by
    rw [hbit] at hactive hacked hshelved
    unfold readRecord
    exact congr (congr (congr (congr (congr (congrArg Record.mk hq) rfl) hactive)
      (by rw [show (announcementPayload c r).getLsbD 20 = r.ackedBy.isSome from hacked,
        show (announcementPayload c r).extractLsb' 15 5 = _ from hk])) hshelved) hv
  refine ⟨hc, (congrArg BitVec.toNat hl).trans ?_, hread.trans ?_⟩
  · rw [BitVec.toNat_ofNat]
    exact Nat.mod_eq_of_lt r.level.code_lt
  · obtain ⟨seq, level, active, ackedBy, shelved, value⟩ := r
    cases ackedBy <;> simp

/-! ### The contest key (R81) -/

theorem NoticeKind.ofRank_rank (kind : NoticeKind) : NoticeKind.ofRank kind.rank = some kind := by
  cases kind <;> rfl

theorem NoticeKind.rank_lt (kind : NoticeKind) : kind.rank < 8 := by
  cases kind <;> decide

theorem contestKey_toNat (severity : Nat) (kind : NoticeKind) (k : StationId) :
    (BitVec.ofNat 10 (contestKey severity kind k)).toNat = contestKey severity kind k := by
  have hk := k.isLt
  have hrank := kind.rank_lt
  rw [BitVec.toNat_ofNat]
  exact Nat.mod_eq_of_lt (by unfold contestKey; omega)

theorem contestKey_rank (severity : Nat) (kind : NoticeKind) (k : StationId) :
    contestKey severity kind k / 32 % 8 = kind.rank := by
  have hk := k.isLt
  have hrank := kind.rank_lt
  unfold contestKey
  omega

theorem contestKey_id (severity : Nat) (kind : NoticeKind) (k : StationId) : contestKey severity kind k % 32 = k.val := by
  have hk := k.isLt
  unfold contestKey
  omega

/-! ### The judgement of a frame as it was formed (R140) -/

/-- A frame with a good CRC is judged by its kind. -/
theorem judgeFrame_flightOf (severity : Nat) (kind : NoticeKind) (k : StationId) (p : BitVec 36) :
    judgeFrame (flightOf (BitVec.ofNat 10 (contestKey severity kind k)) p).values =
      match kind with
      | .ack => .accepted k (readAck p)
      | .replay => .accepted k (readReplay p)
      | .raise => judgeAnnouncement k .raise p
      | .clear => judgeAnnouncement k .clear p
      | .state => judgeAnnouncement k .state p := by
  unfold judgeFrame
  simp only [Flight.key_values, Flight.payload_values, Flight.crc_values]
  have hid : (Fin.ofNat 32 k.val : StationId) = k := Fin.ofNat_val_eq_self k
  have hcrc : frameCrc (flightOf (BitVec.ofNat 10 (contestKey severity kind k)) p).key
      (flightOf (BitVec.ofNat 10 (contestKey severity kind k)) p).payload =
        (flightOf (BitVec.ofNat 10 (contestKey severity kind k)) p).crc := rfl
  rw [if_pos hcrc]
  simp only [flightOf, contestKey_toNat, contestKey_rank, contestKey_id, NoticeKind.ofRank_rank, hid]
  cases kind <;> rfl

/-- Settles O53: every field of a frame formed is where the receiver reads it. -/
theorem framesSentAreReadAsFormed : Obligations.FramesSentAreReadAsFormed := by
  unfold Obligations.FramesSentAreReadAsFormed
  intro severity k
  refine ⟨fun kind c r hlevel hkind => ?_, fun o c q => ?_, fun i => ?_⟩
  · have hjudged (kind : NoticeKind) (hvalid : announcementValid kind r = true) :
        judgeAnnouncement k kind (announcementPayload c r) = .accepted k (.announcement kind c r) := by
      have hid : (Fin.ofNat 8 (BitVec.ofNat 3 c.val).toNat : Channel) = c := by simp
      obtain ⟨hc, hl, hr⟩ := announcementPayload_read c r
      unfold judgeAnnouncement
      rw [hl, Level.ofCode_code]
      simp only [hr, if_pos hvalid, hc, hid]
    rw [judgeFrame_flightOf]
    obtain ⟨rfl, hactive⟩ | ⟨rfl, hactive⟩ | ⟨rfl, hopen⟩ := hkind
    · exact hjudged .raise (by simp [announcementValid, hlevel, hactive])
    · exact hjudged .clear (by simp [announcementValid, hlevel, hactive])
    · exact hjudged .state (by simpa [announcementValid, hlevel] using hopen)
  · rw [judgeFrame_flightOf, ← readAck_ackPayload o c q]
  · rw [judgeFrame_flightOf, ← readReplay_replayPayload i]

end Sys2Proof.Machine
end

section
/-! PROOFS. What the frames of other stations, and ACKs of any station, make of the table, the queue and the feed (R53 to R62): O56,
O57, O58. -/

namespace Sys2Proof.Machine

/-! ### A frame read whole -/

theorem State.listensTo.readsFrame {s : State} {w : Window} (h : s.listensTo w) : s.readsFrame = true := by
  obtain ⟨_, hstation, ⟨k, b, hposition⟩, hwindow, hrole, hjudgement, hsent⟩ := h
  have hobserves : s.station.observes = true := by rcases hstation with h | h | h | h <;> rw [h] <;> rfl
  simp [State.readsFrame, State.follows, hobserves, hposition, hwindow, hrole, hjudgement, hsent, Position.inRound,
    Position.inWindow]

theorem State.listensTo.frameRead_eq {s : State} {w : Window} (h : s.listensTo w) (read : BitVec 54) (j : Judgement) :
    s.frameRead read j = s.afterFrame w read j := by
  obtain ⟨_, _, _, hwindow, _⟩ := h
  simp [State.frameRead, State.judged, State.afterFrame, LineEngine.pastBit, LineEngine.receive, hwindow]

/-- A frame of another station that is accepted is applied. -/
theorem exec_frameJudged_other {s : State} {w : Window} (h : s.listensTo w) {read : BitVec 54} {k : StationId} {f : Frame}
    (hjudge : judgeFrame read = .accepted k f) (hk : k ≠ s.id) :
    exec (.frameJudged read) s = .next ((s.afterFrame w read .accepted).applyFrame k f) := by
  rw [exec_event_off (f := State.judge read) rfl h.1]
  obtain ⟨hr, _⟩ | ⟨_, ⟨hv, _⟩ | ⟨hv, _⟩ | ⟨o, g, hv, hout⟩⟩ := s.judge_cases read
  · rw [h.readsFrame] at hr; cases hr
  · rw [hjudge] at hv; cases hv
  · rw [hjudge] at hv; cases hv
  · rw [hjudge] at hv
    obtain ⟨rfl, rfl⟩ := Verdict.accepted.inj hv
    obtain ⟨ho, _⟩ | ⟨ho, _⟩ | ⟨_, ht⟩ := hout
    · exact absurd ho hk
    · exact absurd ho hk
    · rw [ht, h.frameRead_eq]

/-! ### Changes of remote entries -/

section
variable {s : State}

/-- The state with another table and feed. -/
def State.withTable (t : Table) (f : Feed) (s : State) : State := { s with table := t, feed := f }

theorem State.handToAnnunciation_remote {o : StationId} (h : o ≠ s.id) : s.handToAnnunciation o = s := if_neg h

theorem State.addEntry_remote {e : Entry} (h : e.origin ≠ s.id) :
    s.addEntry e = s.withTable (s.addEntry e).table (s.addEntry e).feed := by
  rw [State.addEntry, State.handToAnnunciation_remote (by exact h)]
  rfl

theorem State.changeEntry_remote {e : Entry} (h : e.origin ≠ s.id) :
    s.changeEntry e = s.withTable (s.changeEntry e).table (s.changeEntry e).feed := by
  rw [State.changeEntry, State.handToAnnunciation_remote (by exact h)]
  rfl

theorem State.removeEntry_remote_eq {e : Entry} (h : e.origin ≠ s.id) (l : Level) (q : Seq) (r : RemovalReason)
    (k : Option StationId) :
    s.removeEntry e l q r k = s.withTable (s.removeEntry e l q r k).table (s.removeEntry e l q r k).feed := by
  rw [State.removeEntry_remote h]
  rfl

/-- A change of the table that makes the ACK entry of a key stale: the queue and the feed follow. -/
theorem State.withTable_makeStale (t : Table) (f : Feed) (o : StationId) (c : Channel) {u : State}
    (hu : u = (s.withTable t f).makeStale o c) :
    u = { s with table := u.table, queue := u.queue, feed := u.feed } ∧ u.table = t ∧
      (s.queueSound = true → u.queue = queueAfterStale [(o, c)] s.queue ∧
        u.feed = f.recordAll s.image.watermark s.line.round (staleRecords [(o, c)] s.queue)) := by
  refine ⟨?_, by rw [hu, State.makeStale_table]; rfl, fun hq => ?_⟩
  · have hframe := (s.withTable t f).makeStale_frame o c
    rw [← hu] at hframe
    have htable : u.table = t := by rw [hframe]; rfl
    rw [htable]
    exact hframe
  · obtain ⟨hok, _⟩ := s.queueSound_iff.mp hq
    rw [hu, State.makeStale_eq (s := s.withTable t f) hok]
    exact ⟨rfl, rfl⟩

end

/-! ### Announcements (R53 to R56) -/

theorem newer_iff (p q : Seq) : newer p q = true ↔ 1 ≤ (p - q).toNat ∧ (p - q).toNat ≤ 127 := by
  rw [newer, decide_eq_true_iff]

theorem Record.isOver_iff (r : Record) : r.isOver ↔ r.active = false ∧ r.ackedBy ≠ none := by
  rw [Record.isOver, Option.isSome_iff_ne_none]

/-- A new entry in a table with room (R54). -/
theorem State.addEntry_effect {s : State} {e : Entry} (hnone : s.table.find e.origin e.channel = none) (ho : e.origin ≠ s.id)
    {u : State} (hu : u = s.addEntry e) :
    u = { s with table := u.table, feed := u.feed } ∧
      (∀ o d, ¬(o = e.origin ∧ d = e.channel) → u.table.find o d = s.table.find o d) ∧
      u.table.find e.origin e.channel = some e ∧ u.table.generation = s.table.generation + 1 ∧
      u.feed = s.feed.arrive s.image.watermark s.line.round e.urgent
        (.entryAdded e.origin e.channel e.level e.seq e.active e.ackedBy) := by
  refine ⟨?_, fun o d h => ?_, ?_, by rw [hu, State.addEntry_table], by rw [hu, State.addEntry_feed]⟩
  · have hframe := State.addEntry_remote ho
    rw [← hu] at hframe
    exact hframe
  · rw [hu, State.find_addEntry hnone, if_neg h]
  · rw [hu, State.find_addEntry hnone, if_pos ⟨rfl, rfl⟩]

/-- What a remote entry changed or removed leaves, with the ACK entry of its key made stale: `now` is the entry there, `first` the
feed after the table's record. -/
structure State.RemoteEntryNow (s u : State) (o : StationId) (c : Channel) (now : Option Entry) (first : Feed) : Prop where
  frame : u = { s with table := u.table, queue := u.queue, feed := u.feed }
  same : ∀ o' d, ¬(o' = o ∧ d = c) → u.table.find o' d = s.table.find o' d
  generation : u.table.generation = s.table.generation + 1
  drops : u.table.drops = s.table.drops
  here : u.table.find o c = now
  stale : s.queueSound = true → u.queue = queueAfterStale [(o, c)] s.queue ∧
    u.feed = first.recordAll s.image.watermark s.line.round (staleRecords [(o, c)] s.queue)

/-- A remote entry overwritten by a newer announcement (R54, R93). -/
theorem State.overwriteEntry_effect {s u : State} {e : Entry} {o : StationId} {c : Channel} (hfind : s.table.find o c = some e)
    (ho : o ≠ s.id) (r : Record) (hu : u = s.overwriteEntry e r) :
    s.RemoteEntryNow u o c (some (e.overwrite r s.line.round))
      (s.feed.arrive s.image.watermark s.line.round (decide (r.level.severity = 3) && r.ackedBy.isNone)
        (.entryChanged o c r.level r.seq r.active r.ackedBy)) := by
  obtain ⟨_, rfl, rfl⟩ := Table.find_some hfind
  have hremote : (e.overwrite r s.line.round).origin ≠ s.id := ho
  rw [State.overwriteEntry, State.changeEntry_remote hremote] at hu
  obtain ⟨hframe, htable, hstale⟩ := State.withTable_makeStale _ _ _ _ hu
  have hreplaced := State.changeEntry_table s (e.overwrite r s.line.round)
  have hfound (o' : StationId) (d : Channel) : (s.changeEntry (e.overwrite r s.line.round)).table.find o' d =
      if o' = e.origin ∧ d = e.channel then some (e.overwrite r s.line.round) else s.table.find o' d :=
    State.find_changeEntry (e := e.overwrite r s.line.round) hfind o' d
  refine ⟨hframe, fun o' d h => ?_, by rw [htable, hreplaced], by rw [htable, hreplaced], ?_, fun hq => ?_⟩
  · rw [htable, hfound, if_neg h]
  · rw [htable, hfound, if_pos ⟨rfl, rfl⟩]
  · obtain ⟨hqueue, hfeed⟩ := hstale hq
    refine ⟨hqueue, ?_⟩
    rw [hfeed, State.changeEntry_feed, Entry.urgent, Entry.acked, Option.not_isSome]
    rfl

/-- A remote entry removed with reason CLEARED (R55, R93). -/
theorem State.clearedEntry_effect {s u : State} {e : Entry} {o : StationId} {c : Channel} (hfind : s.table.find o c = some e)
    (ho : o ≠ s.id) (r : Record) (hu : u = (s.clearEntry e r).makeStale e.origin e.channel) :
    ∃ l q, (l = e.level ∨ l = r.level) ∧ (q = e.seq ∨ q = r.seq) ∧
      s.RemoteEntryNow u o c none
        (s.feed.arrive s.image.watermark s.line.round false (.entryRemoved o c l q .cleared r.ackedBy)) := by
  obtain ⟨_, rfl, rfl⟩ := Table.find_some hfind
  obtain ⟨l, q, hl, hq, hclear⟩ := State.clearEntry_eq e r s
  rw [hclear, State.removeEntry_remote_eq ho] at hu
  obtain ⟨hframe, htable, hstale⟩ := State.withTable_makeStale _ _ _ _ hu
  have hdropped := State.removeEntry_table s e l q .cleared r.ackedBy
  have hfound := State.find_removeEntry s e l q .cleared r.ackedBy
  refine ⟨l, q, hl, hq, hframe, fun o' d h => ?_, by rw [htable, hdropped], by rw [htable, hdropped], ?_, fun hq => ?_⟩
  · rw [htable, hfound, if_neg h]
  · rw [htable, hfound, if_pos ⟨rfl, rfl⟩]
  · obtain ⟨hqueue, hfeed⟩ := hstale hq
    exact ⟨hqueue, by rw [hfeed, State.removeEntry_feed]⟩

/-- Settles O56: the branches of the announcement, on the station that has read the frame. -/
theorem announcementsAreMirrored : Obligations.AnnouncementsAreMirrored := by
  unfold Obligations.AnnouncementsAreMirrored
  intro s w read k kind c r hlistens hjudge hk
  have hcases := State.applyAnnouncement_cases k kind c r (s.afterFrame w read .accepted) (announcementValid_of_judgeFrame hjudge)
  have hexec := exec_frameJudged_other hlistens hjudge hk
  generalize State.applyFrame k (.announcement kind c r) _ = t at hcases hexec
  refine ⟨t, hexec, ?_⟩
  simp only [← newer_iff, ← Record.isOver_iff]
  obtain ⟨hnone, hover, ht⟩ | ⟨hnone, hopen, ht⟩ | ⟨e, hfind, hold, ht⟩ | ⟨e, hfind, hnewer, hopen, ht⟩ | ⟨e, hfind, hnewer, hover, ht⟩ := hcases
  · refine ⟨fun _ _ => ht, fun _ hopen => absurd hover hopen, fun e hfind => ?_, fun e hfind => ?_⟩
    all_goals exact nomatch hnone.symm.trans hfind
  · refine ⟨fun _ hover => absurd hover hopen, fun _ _ hroom => ?_, fun e hfind => ?_, fun e hfind => ?_⟩
    · obtain ⟨_, hadd⟩ | ⟨hfull, _⟩ := State.createRemote_cases k c r (s.afterFrame w read .accepted)
      · obtain ⟨hframe, hsame, hhere, hgen, hfeed⟩ := State.addEntry_effect (s := s.afterFrame w read .accepted)
          (e := Entry.ofRecord k c r _ _) hnone hk (ht.trans hadd)
        exact ⟨hframe, hsame, hhere, hgen, by rw [hfeed, Entry.urgent, Entry.acked, Option.not_isSome]; rfl⟩
      · exact absurd hroom (Nat.not_lt.mpr hfull)
    all_goals exact nomatch hnone.symm.trans hfind
  · refine ⟨fun hnone => ?_, fun hnone => ?_, fun _ _ _ => ht, fun f hf hnewer => ?_⟩
    · exact nomatch hnone.symm.trans hfind
    · exact nomatch hnone.symm.trans hfind
    · obtain rfl := Option.some.inj (hfind.symm.trans hf)
      rw [hold] at hnewer
      cases hnewer
  · have hnow := State.overwriteEntry_effect (s := s.afterFrame w read .accepted) hfind hk r ht
    refine ⟨fun hnone => ?_, fun hnone => ?_, fun f hf hnot => ?_, fun f hf _ => ?_⟩
    · exact nomatch hnone.symm.trans hfind
    · exact nomatch hnone.symm.trans hfind
    all_goals obtain rfl := Option.some.inj (hfind.symm.trans hf)
    · exact absurd hnewer hnot
    · refine ⟨hnow.frame, hnow.same, hnow.generation, hnow.drops, fun _ => hnow.here, fun hover => absurd hover hopen, fun hq => ?_⟩
      obtain ⟨hqueue, hfeed⟩ := hnow.stale hq
      exact ⟨hqueue, fun _ => hfeed, fun hover => absurd hover hopen⟩
  · obtain ⟨l, q, hl, hseq, hnow⟩ := State.clearedEntry_effect (s := s.afterFrame w read .accepted) hfind hk r ht
    refine ⟨fun hnone => ?_, fun hnone => ?_, fun f hf hnot => ?_, fun f hf _ => ?_⟩
    · exact nomatch hnone.symm.trans hfind
    · exact nomatch hnone.symm.trans hfind
    all_goals obtain rfl := Option.some.inj (hfind.symm.trans hf)
    · exact absurd hnewer hnot
    · refine ⟨hnow.frame, hnow.same, hnow.generation, hnow.drops, fun hopen => absurd hover hopen, fun _ => hnow.here, fun hq => ?_⟩
      obtain ⟨hqueue, hfeed⟩ := hnow.stale hq
      exact ⟨hqueue, fun hopen => absurd hover hopen, fun _ => ⟨l, q, hl, hseq, hfeed⟩⟩

/-! ### A full table (R61, R62) -/

/-- The first victim stands before every entry, or beside it. -/
theorem firstVictim_le {es : List Entry} {v : Entry} (h : firstVictim es = some v) :
    ∀ e ∈ es, v.victimRanks ≤ e.victimRanks := by
  induction es generalizing v with
  | nil => nofun
  | cons f fs ih =>
    rw [firstVictim] at h
    cases hl : firstVictim fs with
    | none =>
      have hnil : fs = [] := by
        by_contra hne
        have := firstVictim_isSome hne
        rw [hl] at this
        cases this
      subst hnil
      simp only [hl, Option.some.injEq] at h
      intro e he
      rw [List.mem_singleton.mp he, h]
    | some later =>
      simp only [hl] at h
      by_cases hb : victimBefore later f = true
      · rw [if_pos hb, Option.some.injEq] at h
        subst h
        intro e he
        rcases List.mem_cons.mp he with rfl | he
        · exact le_of_lt ((victimBefore_iff _ _).mp hb)
        · exact ih hl e he
      · rw [if_neg hb, Option.some.injEq] at h
        subst h
        have hle : f.victimRanks ≤ later.victimRanks := not_lt.mp fun hlt => hb ((victimBefore_iff _ _).mpr hlt)
        intro e he
        rcases List.mem_cons.mp he with rfl | he
        · exact le_refl _
        · exact hle.trans (ih hl e he)

/-- The victim order written out (R61). -/
theorem Entry.victimRanks_lt_iff (a b : Entry) :
    a.victimRanks < b.victimRanks ↔
      a.severity < b.severity ∨ (a.severity = b.severity ∧
        ((a.acked = true ∧ b.acked = false) ∨ (a.acked = b.acked ∧
          ((a.active = false ∧ b.active = true) ∨ (a.active = b.active ∧
            (a.firstRound.toNat < b.firstRound.toNat ∨ (a.firstRound = b.firstRound ∧
              (a.origin < b.origin ∨ (a.origin = b.origin ∧ a.channel < b.channel))))))))) := by
  simp only [Entry.victimRanks, List.cons_lt_cons_iff, Fin.lt_def, Fin.ext_iff, ← BitVec.toNat_inj]
  cases a.acked <;> cases b.acked <;> cases a.active <;> cases b.active <;> simp

/-- An entry that stands before every other one in the victim order is the victim. -/
theorem firstVictim_eq {es : List Entry} {v : Entry} (hv : v ∈ es)
    (hbefore : ∀ e ∈ es, e ≠ v → v.victimRanks < e.victimRanks) {v' : Entry} (h : firstVictim es = some v') : v' = v := by
  by_contra hne
  exact absurd (firstVictim_le h v hv) (not_le.mpr (hbefore v' (firstVictim_mem h) hne))

theorem admitted_iff (v e : Entry) :
    admitted v e = true ↔ v.severity < e.severity ∨ (v.severity = e.severity ∧ v.acked = true ∧ e.ackedBy = none) := by
  simp [admitted, Entry.acked, and_assoc]

/-- A victim gives way to a newcomer (R61, R62, R93). -/
theorem State.admit_effect {s u : State} {v e : Entry} (hv : v ∈ s.table.entries) (htable : s.tableSound = true)
    (ho : e.origin ≠ s.id) (hnone : s.table.find e.origin e.channel = none)
    (hu : u = ((s.evict v).addEntry e).makeStale v.origin v.channel) :
    u = { s with table := u.table, queue := u.queue, feed := u.feed } ∧ u.table.find v.origin v.channel = none ∧
      u.table.find e.origin e.channel = some e ∧
      (∀ o d, ¬(o = e.origin ∧ d = e.channel) → ¬(o = v.origin ∧ d = v.channel) → u.table.find o d = s.table.find o d) ∧
      u.table.generation = s.table.generation + 2 ∧ u.table.drops = s.table.drops ∧
      (s.queueSound = true → u.queue = queueAfterStale [(v.origin, v.channel)] s.queue ∧
        u.feed = ((s.feed.arrive s.image.watermark s.line.round false
            (.entryEvicted v.origin v.channel v.level v.seq)).arrive s.image.watermark s.line.round e.urgent
          (.entryAdded e.origin e.channel e.level e.seq e.active e.ackedBy)).recordAll s.image.watermark s.line.round
            (staleRecords [(v.origin, v.channel)] s.queue)) := by
  have hgone (o : StationId) (d : Channel) : (s.evict v).table.find o d =
      if o = v.origin ∧ d = v.channel then none else s.table.find o d := find_dropped rfl o d
  have hfree : (s.evict v).table.find e.origin e.channel = none := by rw [hgone, hnone, ite_self]
  have hkeys : ¬(v.origin = e.origin ∧ v.channel = e.channel) := fun ⟨hvo, hvc⟩ => by
    have hfound := Table.find_of_mem (State.tableSound_sorted htable) hv
    rw [hvo, hvc, hnone] at hfound
    cases hfound
  have hadded := State.addEntry_table (s.evict v) e
  have hfound := State.find_addEntry hfree
  rw [State.addEntry_remote (s := s.evict v) ho] at hu
  obtain ⟨hframe, htable, hstale⟩ := State.withTable_makeStale (s := s) _ _ _ _ hu
  refine ⟨hframe, ?_, ?_, fun o d hnew hold => ?_, ?_, ?_, fun hq => ?_⟩
  · rw [htable, hfound, if_neg hkeys, hgone, if_pos ⟨rfl, rfl⟩]
  · rw [htable, hfound, if_pos ⟨rfl, rfl⟩]
  · rw [htable, hfound, if_neg hnew, hgone, if_neg hold]
  · rw [htable, hadded]
    exact BitVec.add_assoc _ 1 1
  · rw [htable, hadded]
    rfl
  · obtain ⟨hqueue, hfeed⟩ := hstale hq
    refine ⟨hqueue, ?_⟩
    rw [hfeed, State.addEntry_feed]
    rfl

/-- Settles O57: the victim is the first by the victim order, and gives way or not by the admission test. -/
theorem fullTableAdmitsByItsVictim : Obligations.FullTableAdmitsByItsVictim := by
  unfold Obligations.FullTableAdmitsByItsVictim
  intro s w read k kind c r v hlistens hjudge hk hnone hopen htable hfull hv hvo hbefore
  have hcases := State.applyAnnouncement_cases k kind c r (s.afterFrame w read .accepted) (announcementValid_of_judgeFrame hjudge)
  have hexec := exec_frameJudged_other hlistens hjudge hk
  generalize State.applyFrame k (.announcement kind c r) _ = t at hcases hexec
  refine ⟨t, hexec, ?_⟩
  have hcreated : t = (s.afterFrame w read .accepted).createRemote k c r := by
    obtain ⟨_, hover, _⟩ | ⟨_, _, ht⟩ | ⟨e, hfind, _⟩ | ⟨e, hfind, _⟩ | ⟨e, hfind, _⟩ := hcases
    · exact absurd (r.isOver_iff.mp hover) hopen
    · exact ht
    all_goals exact nomatch hnone.symm.trans hfind
  have hremote : v ∈ remoteEntries s.id s.table.entries := mem_remoteEntries.mpr ⟨hv, hvo⟩
  have hvictim {v' : Entry} (h : firstVictim (remoteEntries s.id s.table.entries) = some v') : v' = v := by
    refine firstVictim_eq hremote (fun e he hne => ?_) h
    obtain ⟨he, heo⟩ := mem_remoteEntries.mp he
    exact (Entry.victimRanks_lt_iff v e).mpr (hbefore e he heo hne)
  obtain ⟨hroom, _⟩ | ⟨_, v', hfirst, hout⟩ := State.createRemote_cases k c r (s.afterFrame w read .accepted)
  · exact absurd hfull (Nat.ne_of_lt hroom)
  · obtain rfl := hvictim hfirst
    obtain ⟨hadmits, ht⟩ | ⟨hrefused, ht⟩ := hout
    · refine ⟨fun hnot => absurd ((admitted_iff _ _).mp hadmits) hnot, fun _ => ?_⟩
      obtain ⟨hframe, hgone, hhere, hsame, hgen, hdrops, hstale⟩ := State.admit_effect (s := s.afterFrame w read .accepted) hv htable
        (e := Entry.ofRecord k c r _ _) hk hnone (hcreated.trans ht)
      refine ⟨hframe, hgone, Option.isSome_iff_exists.mpr ⟨_, hhere⟩, hsame, hgen, hdrops, fun hq => ?_⟩
      obtain ⟨hqueue, hfeed⟩ := hstale hq
      exact ⟨hqueue, by rw [hfeed, Entry.urgent, Entry.acked, Option.not_isSome]; rfl⟩
    · refine ⟨fun _ => ?_, fun hadmits => ?_⟩
      · rw [hcreated, ht, State.dropNewcomer, satInc_counter]
        rfl
      · rw [(admitted_iff _ _).mpr hadmits] at hrefused
        cases hrefused

end Sys2Proof.Machine
end

section
/-! PROOFS. What ACKs, REPLAYs and PURGE do to the table, the queue and the feed (R57 to R59, R66, R95): O32, O58, O59. -/

namespace Sys2Proof.Machine

/-! ### ACKs (R57) -/

/-- An ACK of an own-origin entry reaches the record of its channel (R33). -/
theorem State.monitor_passAck (o : StationId) (c d : Channel) (k : StationId) (s : State) :
    (s.passAck o c k).monitor d =
      if o = s.id ∧ d = c then { s.monitor d with record := { (s.monitor d).record with ackedBy := some k } }
      else s.monitor d := by
  unfold State.passAck
  by_cases ho : o = s.id
  · rw [if_pos ho, State.ackRecord, State.monitor_setMonitor]
    by_cases hd : d = c
    · rw [if_pos hd.symm, if_pos ⟨ho, hd⟩, hd]
    · rw [if_neg (Ne.symm hd), if_neg fun h => hd h.2]
  · rw [if_neg ho, if_neg fun h => ho h.1]

theorem State.monitor_congr {s t : State} (h : t.monitors = s.monitors) (d : Channel) : t.monitor d = s.monitor d := by
  rw [State.monitor, State.monitor, h]

/-- What an ACK of station `k` that acts on the entry of a key leaves. -/
structure State.AckedNow (s t : State) (k o : StationId) (c : Channel) (now : Option Entry) : Prop where
  generation : t.table.generation = s.table.generation + 1
  same : ∀ o' d, ¬(o' = o ∧ d = c) → t.table.find o' d = s.table.find o' d
  monitor : ∀ d, t.monitor d =
    if o = s.id ∧ d = c then { s.monitor d with record := { (s.monitor d).record with ackedBy := some k } } else s.monitor d
  here : t.table.find o c = now

/-- An active entry acknowledged (R57). -/
theorem State.setAcked_effect {s : State} {o : StationId} {c : Channel} {e : Entry} (hfind : s.table.find o c = some e)
    (k : StationId) :
    s.AckedNow (s.setAcked e k) k o c (some { e with ackedBy := some k, changedRound := s.line.round }) ∧
      (s.setAcked e k).queue = s.queue ∧
      (s.setAcked e k).feed = s.feed.arrive s.image.watermark s.line.round false (.entryAcked o c e.level e.seq k) := by
  obtain ⟨_, rfl, rfl⟩ := Table.find_some hfind
  have htable : (s.setAcked e k).table = (s.storeEntry { e with ackedBy := some k, changedRound := s.line.round }).table := by
    simp [State.setAcked]
  have hfound (o' : StationId) (d : Channel) : (s.setAcked e k).table.find o' d =
      if o' = e.origin ∧ d = e.channel then some { e with ackedBy := some k, changedRound := s.line.round }
      else s.table.find o' d := by
    rw [htable]
    exact find_replaced (e := { e with ackedBy := some k, changedRound := s.line.round }) hfind rfl o' d
  refine ⟨⟨by rw [htable]; rfl, fun o' d h => ?_, fun d => ?_, ?_⟩, by simp, by simp [State.setAcked]⟩
  · rw [hfound, if_neg h]
  · rw [State.setAcked, State.monitor_passAck]
    simp only [State.handToAnnunciation_id, State.write_id, State.storeEntry_id]
    rw [State.monitor_congr (s := s) (by simp)]
  · rw [hfound, if_pos ⟨rfl, rfl⟩]

/-- A cleared entry removed by an ACK; that of another station makes this station's own ACK entry stale (R57, R93). -/
theorem State.removeAcked_effect {s : State} {o : StationId} {c : Channel} {e : Entry} (hfind : s.table.find o c = some e)
    (k : StationId) :
    s.AckedNow (s.removeAcked e k) k o c none ∧
      (s.queueSound = true →
        (s.removeAcked e k).queue = queueAfterStale (if k = s.id then [] else [(o, c)]) s.queue ∧
          (s.removeAcked e k).feed = (s.feed.arrive s.image.watermark s.line.round false
            (.entryRemoved o c e.level e.seq .ackedAfterClear (some k))).recordAll s.image.watermark s.line.round
              (staleRecords (if k = s.id then [] else [(o, c)]) s.queue)) := by
  obtain ⟨_, rfl, rfl⟩ := Table.find_some hfind
  obtain ⟨v, hv⟩ : ∃ v, v = (s.removeEntry e e.level e.seq .ackedAfterClear (some k)).passAck e.origin e.channel k := ⟨_, rfl⟩
  have hid : v.id = s.id := by rw [hv]; simp
  have hqueue : v.queue = s.queue := by rw [hv]; simp
  have hline : v.line = s.line := by rw [hv]; simp
  have himage : v.image = s.image := by rw [hv]; simp
  have hfeed : v.feed = s.feed.arrive s.image.watermark s.line.round false
      (.entryRemoved e.origin e.channel e.level e.seq .ackedAfterClear (some k)) := by
    rw [hv, State.passAck_feed, State.removeEntry_feed]
  have hnow : s.AckedNow v k e.origin e.channel none := by
    have hfound := State.find_removeEntry s e e.level e.seq .ackedAfterClear (some k)
    refine ⟨?_, fun o' d h => ?_, fun d => ?_, ?_⟩
    · rw [hv, State.passAck_table, State.removeEntry_table]
    · rw [hv, State.passAck_table, hfound, if_neg h]
    · rw [hv, State.monitor_passAck, State.removeEntry_id, State.monitor_congr (s := s) (by simp)]
    · rw [hv, State.passAck_table, hfound, if_pos ⟨rfl, rfl⟩]
  have heq : s.removeAcked e k = if k = s.id then v else v.makeStale e.origin e.channel := by
    rw [State.removeAcked, ← hv, hid]
  by_cases hk : k = s.id
  · rw [heq, if_pos hk, if_pos hk, queueAfterStale_nil, hfeed]
    exact ⟨hnow, fun _ => ⟨hqueue, rfl⟩⟩
  · rw [heq, if_neg hk, if_neg hk]
    refine ⟨⟨?_, ?_, fun d => ?_, ?_⟩, fun hq => ?_⟩
    · rw [State.makeStale_table]; exact hnow.generation
    · rw [State.makeStale_table]; exact hnow.same
    · rw [State.monitor_congr (s := v) (by simp)]; exact hnow.monitor d
    · rw [State.makeStale_table]; exact hnow.here
    · obtain ⟨hok, _⟩ := s.queueSound_iff.mp hq
      have hstale := State.makeStale_eq (s := v) (by rw [hid, hqueue]; exact hok) e.origin e.channel
      rw [hstale, hqueue]
      refine ⟨rfl, ?_⟩
      rw [State.writeAll, hfeed, himage, hline]

/-- What the ACK of a station does to the station that has read it or sent it whole. -/
theorem State.applyAck_effect {v t : State} (k o : StationId) (c : Channel) (seq : Seq) (ht : t = v.applyAck k o c seq) :
    ((∀ e, v.table.find o c = some e → e.seq ≠ seq ∨ e.ackedBy ≠ none) → t = v) ∧
      (∀ e, v.table.find o c = some e → e.seq = seq → e.ackedBy = none →
        t.table.generation = v.table.generation + 1 ∧
        (∀ o' c', ¬(o' = o ∧ c' = c) → t.table.find o' c' = v.table.find o' c') ∧
        (∀ d, t.monitor d =
          if o = v.id ∧ d = c then { v.monitor d with record := { (v.monitor d).record with ackedBy := some k } }
          else v.monitor d) ∧
        (e.active = true →
          t.table.find o c = some { e with ackedBy := some k, changedRound := v.line.round } ∧ t.queue = v.queue ∧
          t.feed = v.feed.arrive v.image.watermark v.line.round false (.entryAcked o c e.level seq k)) ∧
        (e.active = false → t.table.find o c = none ∧
          (v.queueSound = true →
            t.queue = queueAfterStale (if k = v.id then [] else [(o, c)]) v.queue ∧
            t.feed = (v.feed.arrive v.image.watermark v.line.round false
              (.entryRemoved o c e.level seq .ackedAfterClear (some k))).recordAll v.image.watermark v.line.round
                (staleRecords (if k = v.id then [] else [(o, c)]) v.queue)))) := by
  obtain ⟨hnone, h⟩ | ⟨e, hfind, rfl, hunacked, hout⟩ := v.applyAck_cases k o c seq
  · refine ⟨fun _ => ht.trans h, fun e hfind hseq hunacked => ?_⟩
    exact absurd (hnone e hfind) (not_or.mpr ⟨not_not.mpr hseq, not_not.mpr hunacked⟩)
  · refine ⟨fun hnot => absurd (hnot e hfind) (not_or.mpr ⟨not_not.mpr rfl, not_not.mpr hunacked⟩), fun f hf _ _ => ?_⟩
    obtain rfl := Option.some.inj (hfind.symm.trans hf)
    obtain ⟨hactive, h⟩ | ⟨hcleared, h⟩ := hout <;> rw [ht, h]
    · obtain ⟨hnow, hrest⟩ := State.setAcked_effect hfind k
      exact ⟨hnow.generation, hnow.same, hnow.monitor, fun _ => ⟨hnow.here, hrest⟩,
        fun hnot => absurd (hactive.symm.trans hnot) (by decide)⟩
    · obtain ⟨hnow, hrest⟩ := State.removeAcked_effect hfind k
      exact ⟨hnow.generation, hnow.same, hnow.monitor, fun hnot => absurd (hcleared.symm.trans hnot) (by decide),
        fun _ => ⟨hnow.here, hrest⟩⟩

/-- A station that sends a frame in a window has the flight that its part says. -/
theorem State.sends.flightAs_eq {s : State} {role : Role} {w : Window} {f : Flight} {e : QueueEntry}
    (h : s.sends role w f e) (hround : s.line.position.inRound = true) (hsent : w.sentWhole = false) :
    s.flightAs role = some f := by
  obtain ⟨_, hstation, hwindow, hrole, hflight, _⟩ := h
  have hparts : (s.follows && s.station.participates) = true := by
    rcases hstation with h | h <;> simp [State.follows, StationState.observes, StationState.participates, h, hround]
  rw [State.flightAs, if_pos hparts, hwindow]
  simp only [hrole, hsent, hflight, and_self, if_true]

/-- An own ACK sent whole is applied to the own table (R58, R136). -/
theorem exec_frameSentWhole_ack {s : State} {w : Window} {f : Flight} {e : QueueEntry} (h : s.sends .sender w f e)
    (hposition : ∃ n b, s.line.position = .round (.window n) b) (hsent : w.sentWhole = false)
    (hrank : f.key.toNat / 32 % 8 = 2) {o : StationId} {c : Channel} {seq : Seq} (hpayload : f.payload = ackPayload o c seq) :
    exec .frameSentWhole s = .next ((s.frameSent f).applyAck s.id o c seq) := by
  obtain ⟨n, b, hposition⟩ := hposition
  have hflight := h.flightAs_eq (by rw [hposition]; rfl) hsent
  rw [exec_event_off (f := State.sendWhole) rfl h.1]
  obtain ⟨hnone, _⟩ | ⟨g, hg, ⟨_, o', c', q', hread, ht⟩ | ⟨hnot, _⟩⟩ := s.sendWhole_cases
  · rw [hflight] at hnone; cases hnone
  · obtain rfl := Option.some.inj (hflight.symm.trans hg)
    rw [hpayload, readAck_ackPayload] at hread
    obtain ⟨rfl, rfl, rfl⟩ := Frame.ack.inj hread
    rw [ht]
  · obtain rfl := Option.some.inj (hflight.symm.trans hg)
    exact absurd hrank hnot

/-- Settles O58: an ACK, received or sent whole, acts on a station that differs in its line alone. -/
theorem acknowledgementsAreApplied : Obligations.AcknowledgementsAreApplied := by
  unfold Obligations.AcknowledgementsAreApplied
  intro s w command k o c seq hsource
  obtain ⟨l, hexec, hl⟩ : ∃ l : LineEngine, exec command s = .next (({ s with line := l } : State).applyAck k o c seq) ∧
      l = { s.line with
        position := .round (.window s.line.windowsUsed) 55, window := l.window, tx := l.tx
        abandons := if k = s.id then 0 else s.line.abandons } := by
    obtain ⟨hlistens, hk, read, rfl, hjudge⟩ | ⟨rfl, rfl, hsent, hposition, f, e, hsends, hrank, hpayload⟩ := hsource
    · refine ⟨_, exec_frameJudged_other hlistens hjudge hk, ?_⟩
      rw [if_neg hk]
    · refine ⟨_, exec_frameSentWhole_ack hsends hposition hsent hrank hpayload, ?_⟩
      rw [if_pos rfl, LineEngine.endFrame, LineEngine.receive_frame]
      rfl
  obtain ⟨t, ht⟩ : ∃ t, t = ({ s with line := l } : State).applyAck k o c seq := ⟨_, rfl⟩
  have hreach := State.applyAck_reach k o c seq { s with line := l }
  rw [← ht] at hreach hexec
  obtain ⟨hnot, hacts⟩ := State.applyAck_effect k o c seq ht
  have hline : t.line = l := hreach.line
  have hround : l.round = s.line.round := by rw [hl]
  refine ⟨t, hexec, ?_, by rw [hline]; exact hl, fun h => ?_, fun e hfind hseq hunacked => ?_⟩
  · rw [hline]
    exact hreach.eq
  · rw [hnot h]
    exact ⟨rfl, rfl, rfl, rfl, rfl⟩
  · have h := hacts e hfind hseq hunacked
    simp only [hround] at h
    exact h

end Sys2Proof.Machine
end

section
/-! PROOFS. The re-announcement of own conditions (R75), and what a REPLAY and PURGE do to the table, the queue and the feed (R59, R66,
R95, R144): O32, O59. -/

namespace Sys2Proof.Machine

/-! ### Re-announcing (R75) -/

/-- The own conditions without a queue entry, in channel order (R75). -/
def unannounced (id : StationId) (t : Table) (q : List QueueEntry) (cs : List Channel) : List Channel :=
  cs.filter (fun c => (t.find id c).isSome && (slotEntry (channelSlot c) q).isNone)

/-- The entry of a condition that is announced again. -/
def reannounced (c : Channel) : QueueEntry := QueueEntry.fresh (channelSlot c) (.channel c true)

theorem slotEntry_reannounced_ne {c d : Channel} (h : d ≠ c) (q : List QueueEntry) :
    slotEntry (channelSlot d) (q ++ [reannounced c]) = slotEntry (channelSlot d) q := by
  have hslot : channelSlot c ≠ channelSlot d := fun heq => h (channelSlot_inj.mp heq).symm
  have hnone : slotEntry (channelSlot d) [reannounced c] = none :=
    slotEntry_none.mpr fun e he => List.mem_singleton.mp he ▸ hslot
  rw [slotEntry_append, hnone, Option.or_none]

theorem foldl_stageReannounce (id : StationId) (t : Table) (cs : List Channel) (h : cs.Nodup) (q : List QueueEntry) :
    cs.foldl (fun q c => stageReannounce id t c q) q = q ++ (unannounced id t q cs).map reannounced := by
  induction cs generalizing q with
  | nil => simp [unannounced]
  | cons c cs ih =>
    obtain ⟨hc, hcs⟩ := List.nodup_cons.mp h
    rw [List.foldl_cons, ih hcs]
    cases hstage : (t.find id c).isSome && (slotEntry (channelSlot c) q).isNone with
    | false =>
      have hskip : stageReannounce id t c q = q := if_neg (by rw [hstage]; exact Bool.false_ne_true)
      rw [hskip, unannounced, unannounced, List.filter_cons, hstage]
      rfl
    | true =>
      have htake : stageReannounce id t c q = q ++ [reannounced c] := if_pos hstage
      have hrest : unannounced id t (q ++ [reannounced c]) cs = unannounced id t q cs := by
        refine List.filter_congr fun d hd => ?_
        rw [slotEntry_reannounced_ne (by rintro rfl; exact hc hd)]
      rw [htake, hrest, unannounced, unannounced, List.filter_cons, hstage]
      simp

/-- Re-announcing adds, in channel order, the own conditions that have no entry. -/
theorem reannounceAll_eq (id : StationId) (t : Table) (q : List QueueEntry) :
    reannounceAll id t q = q ++ (unannounced id t q channelOrder).map reannounced :=
  foldl_stageReannounce id t channelOrder (by decide) q

/-! ### Staleness and the entries that are no ACK -/

theorem queueAfterStale_append (keys : List (StationId × Channel)) (p q : List QueueEntry) :
    queueAfterStale keys (p ++ q) = queueAfterStale keys p ++ queueAfterStale keys q := by
  simp only [queueAfterStale_eq, List.filterMap_append]

theorem reannounced_not_stale (c : Channel) (keys : List (StationId × Channel)) : (reannounced c).staleFor keys = false := by
  simp [QueueEntry.staleFor, QueueEntry.acknowledges, reannounced, QueueEntry.fresh]

theorem queueAfterStale_reannounced (keys : List (StationId × Channel)) (cs : List Channel) :
    queueAfterStale keys (cs.map reannounced) = cs.map reannounced := by
  rw [queueAfterStale_eq, List.filterMap_map, ← List.filterMap_eq_map]
  refine List.filterMap_congr fun c _ => if_neg ?_
  rw [reannounced_not_stale]
  exact Bool.false_ne_true

theorem staleRecords_reannounced (keys : List (StationId × Channel)) (q : List QueueEntry) (cs : List Channel) :
    staleRecords keys (q ++ cs.map reannounced) = staleRecords keys q := by
  refine List.flatMap_congr fun k _ => ?_
  have hnone : (cs.map reannounced).filter (fun e => e.acknowledges k.1 k.2 && !e.onLine) = [] := by
    refine List.filter_eq_nil_iff.mpr fun e he => ?_
    obtain ⟨c, _, rfl⟩ := List.mem_map.mp he
    simp [QueueEntry.acknowledges, reannounced, QueueEntry.fresh]
  rw [List.filter_append, hnone, List.append_nil]

theorem staleRecords_forgetReceipts (keys : List (StationId × Channel)) (k : StationId) (q : List QueueEntry) :
    staleRecords keys (forgetReceipts k q) = staleRecords keys q := by
  refine List.flatMap_congr fun l _ => ?_
  rw [forgetReceipts, List.filter_map, List.flatMap_map]
  rfl

theorem slotEntry_forgetReceipts (j : Fin 15) (k : StationId) (q : List QueueEntry) :
    (slotEntry j (forgetReceipts k q)).isNone = (slotEntry j q).isNone := by
  rw [slotEntry, forgetReceipts, List.find?_map, Option.isNone_map]
  rfl

/-! ### An origin removed -/

theorem State.makeStaleAll_frame (keys : List (StationId × Channel)) (s : State) :
    s.makeStaleAll keys = { s with queue := (s.makeStaleAll keys).queue, feed := (s.makeStaleAll keys).feed } := by
  induction keys generalizing s with
  | nil => rfl
  | cons k ks ih =>
    have hrest : s.makeStaleAll (k :: ks) = (s.makeStale k.1 k.2).makeStaleAll ks := rfl
    have hone := s.makeStale_frame k.1 k.2
    generalize s.makeStale k.1 k.2 = u at hrest hone
    rw [hrest, ih u]
    generalize u.makeStaleAll ks = v
    rw [hone]

theorem Table.find_ofOrigin_removed {t u : Table} {o : StationId}
    (hu : u.entries = t.entries.filter (fun e => decide (e.origin ≠ o))) {o' : StationId} (h : o' ≠ o) (c : Channel) :
    u.find o' c = t.find o' c := by
  rw [Table.find, Table.find, hu, List.find?_filter]
  refine List.find?_congr fun e _ => ?_
  rw [Entry.hasKey_eq_decide]
  by_cases hk : e.origin = o' ∧ e.channel = c
  · simp [hk, h]
  · simp [hk]

/-- An origin's entries purged: the table, and the feed and the queue in a sound state (R66). -/
theorem State.purge_effect {s t : State} {o : StationId} (ho : o ≠ s.id) (ht : t = s.purge o) :
    t = { s with table := t.table, queue := t.queue, feed := t.feed } ∧
      t.table.entries = s.table.entries.filter (fun e => decide (e.origin ≠ o)) ∧
      t.table.generation = s.table.generation + BitVec.ofNat 16 (s.table.ofOrigin o).length ∧
      t.table.drops = s.table.drops ∧
      (s.queueSound = true → s.tableSound = true →
        t.queue = queueAfterStale (keysOf (s.table.ofOrigin o)) s.queue ∧
        t.feed = s.feed.recordAll s.image.watermark s.line.round
          ((s.table.ofOrigin o).map (Entry.removedBody .purge) ++ staleRecords (keysOf (s.table.ofOrigin o)) s.queue)) := by
  have hpurge : t = (s.removeAll (s.table.ofOrigin o) .purge).makeStaleAll (keysOf (s.table.ofOrigin o)) := ht
  have hframe := State.makeStaleAll_frame (keysOf (s.table.ofOrigin o)) (s.removeAll (s.table.ofOrigin o) .purge)
  rw [← hpurge, State.removeOrigin_eq ho] at hframe
  have htable : t.table = { s.table with
      entries := s.table.entries.filter (fun e => decide (e.origin ≠ o))
      generation := s.table.generation + BitVec.ofNat 16 (s.table.ofOrigin o).length } := by rw [hframe]
  refine ⟨?_, by rw [htable], by rw [htable], by rw [htable], fun hqueue hsound => ?_⟩
  · rw [htable]
    exact hframe
  · obtain ⟨hok, _⟩ := s.queueSound_iff.mp hqueue
    have hsorted : (s.table.ofOrigin o).Pairwise (fun a b => a.index < b.index) := (State.tableSound_sorted hsound).filter _
    rw [State.removeOrigin_eq ho] at hpurge
    rw [hpurge, State.makeStaleAll_eq (by exact hok) (keysOf_nodup hsorted)]
    exact ⟨rfl, (Feed.recordAll_append _ _ _ _ _).symm⟩

/-- Settles O32: the checks of R66, and then the origin's entries removed with their ACK entries. -/
theorem purgeRemovesAnAbsentOrigin : Obligations.PurgeRemovesAnAbsentOrigin := by
  unfold Obligations.PurgeRemovesAnAbsentOrigin
  intro origin s hopen
  simp only
  have hrefused {status : Status} (hserve : servePurge origin (s.taking .purge [origin]) = (s.taking .purge [origin]).refuse status) :
      exec (.purge origin) s = .next (s.answered .purge [origin] [status.code, 0xFF#8]) :=
    State.request_answered (data := []) rfl hopen rfl hserve rfl
  refine ⟨fun hs => hrefused (status := .badState) (if_pos hs),
    fun hs hrange => hrefused (status := .badValue) ((if_neg hs).trans (if_pos hrange)), fun o hs ho => ?_⟩
  have hserve : servePurge origin (s.taking .purge [origin]) =
      if o = s.id then (s.taking .purge [origin]).refuse .ownOrigin
      else if (s.peer o).presence = .present then (s.taking .purge [origin]).refuse .originPresent
      else { state := (s.taking .purge [origin]).purge o, status := .ok, data := [byteOf (s.table.ofOrigin o).length] } := by
    have hrange : ¬31 < origin.toNat := by have := o.isLt; omega
    rw [servePurge, if_neg (by exact hs), if_neg hrange, Fin.ofNat_eq_of_val ho]
    rfl
  refine ⟨fun hown => hrefused (status := .ownOrigin) (hserve.trans (if_pos hown)), fun hother hpresent =>
    hrefused (status := .originPresent) (hserve.trans ((if_neg hother).trans (if_pos hpresent))), fun hother habsent => ?_⟩
  have hnot : (s.peer o).presence ≠ .present := by rw [habsent]; decide
  rw [if_neg hother, if_neg hnot] at hserve
  obtain ⟨hframe, hentries, hgen, hdrops, hsound⟩ := State.purge_effect (s := s.taking .purge [origin]) hother rfl
  generalize State.purge o _ = u at hserve hframe hentries hgen hdrops hsound
  refine ⟨_, State.request_served (command := .purge origin) (u := u) (status := .ok) rfl hopen rfl hserve (by rw [hframe]) rfl, ?_,
    hentries, hgen, hdrops, hsound⟩
  rw [hframe]
  rfl

/-! ### REPLAYs (R59, R95, R144) -/

theorem Image.mismatches_iff (i : Image) (g : BitVec 6) (w : BitVec 3) (p : BitVec 14) :
    i.mismatches g w p = true ↔ g.toNat ≠ i.groupSize ∨ w.toNat ≠ i.windows ∨ p.toNat ≠ i.period := by
  simp [Image.mismatches, or_assoc]

/-- What a REPLAY of another station leaves: the table without its origin, the queue's response, and the records in order. -/
theorem State.applyReplay_effect {s t : State} {o : StationId} (ho : o ≠ s.id) (g : BitVec 6) (w : BitVec 3) (p : BitVec 14)
    (hqueue : s.queueSound = true) (hsound : s.tableSound = true) (ht : t = s.applyReplay o g w p) :
    t = { (s.noteMismatch o g w p).writeAll
        ((s.table.ofOrigin o).map (Entry.removedBody .rejoin) ++ staleRecords (keysOf (s.table.ofOrigin o)) s.queue) with
      table := { s.table with
        entries := s.table.entries.filter (fun e => decide (e.origin ≠ o))
        generation := s.table.generation + BitVec.ofNat 16 (s.table.ofOrigin o).length }
      queue := queueAfterStale (keysOf (s.table.ofOrigin o)) (forgetReceipts o s.queue) ++
        (unannounced s.id s.table s.queue channelOrder).map reannounced } := by
  obtain ⟨hok, _⟩ := s.queueSound_iff.mp hqueue
  have hsorted : (s.table.ofOrigin o).Pairwise (fun a b => a.index < b.index) := (State.tableSound_sorted hsound).filter _
  have hnoted := s.noteMismatch_frame o g w p
  have hremoved := State.removeOrigin_eq (s := s.noteMismatch o g w p) (o := o) (by rw [hnoted]; exact ho) .rejoin
  rw [State.applyReplay_eq] at ht
  generalize s.noteMismatch o g w p = v at hnoted hremoved ht ⊢
  obtain ⟨f, rfl⟩ : ∃ f, v = { s with feed := f } := ⟨_, hnoted⟩
  have hfind (c : Channel) := Table.find_ofOrigin_removed (t := s.table) (u := { s.table with
      entries := s.table.entries.filter (fun e => decide (e.origin ≠ o))
      generation := s.table.generation + BitVec.ofNat 16 (s.table.ofOrigin o).length }) rfl (Ne.symm ho) c
  have hunannounced : unannounced s.id { s.table with
      entries := s.table.entries.filter (fun e => decide (e.origin ≠ o))
      generation := s.table.generation + BitVec.ofNat 16 (s.table.ofOrigin o).length } (forgetReceipts o s.queue) channelOrder =
        unannounced s.id s.table s.queue channelOrder := by
    refine List.filter_congr fun c _ => ?_
    rw [hfind, slotEntry_forgetReceipts]
  have hcalm := ((forgetReceipts_calm s.id o s.queue).trans (reannounceAll_calm s.id s.id { s.table with
      entries := s.table.entries.filter (fun e => decide (e.origin ≠ o))
      generation := s.table.generation + BitVec.ofNat 16 (s.table.ofOrigin o).length } _)).ok hok
  rw [show ({ s with feed := f } : State).removeAll (s.table.ofOrigin o) .rejoin = _ from hremoved, State.answerReplay,
    State.makeStaleAll_eq hcalm (keysOf_nodup hsorted)] at ht
  simp only [State.writeAll, reannounceAll_eq, hunannounced, queueAfterStale_append, queueAfterStale_reannounced,
    staleRecords_reannounced, staleRecords_forgetReceipts] at ht
  rw [ht, State.writeAll, Feed.recordAll_append]

/-- Settles O59: the REPLAY applied on the station that has read it; CONFIG_MISMATCH stands first. -/
theorem replayRemovesTheOriginAndReannounces : Obligations.ReplayRemovesTheOriginAndReannounces := by
  unfold Obligations.ReplayRemovesTheOriginAndReannounces
  intro s w read k g n p hlistens hjudge hk hqueue hsound
  refine ⟨_, exec_frameJudged_other hlistens hjudge hk, ?_⟩
  have ht := State.applyReplay_effect (s := s.afterFrame w read .accepted) hk g n p hqueue hsound rfl
  have happly : (s.afterFrame w read .accepted).applyFrame k (.replay g n p) =
    (s.afterFrame w read .accepted).applyReplay k g n p := rfl
  rw [happly]
  have hnoted := (s.afterFrame w read .accepted).noteMismatch_frame k g n p
  have hfeed : ((s.afterFrame w read .accepted).noteMismatch k g n p).feed =
      if s.image.mismatches g n p = true then s.feed.arrive s.image.watermark s.line.round false (.configMismatch k g n p)
      else s.feed := by
    unfold State.noteMismatch
    split
    · rename_i h
      exact (if_pos h).symm
    · rename_i h
      exact (if_neg h).symm
  generalize (s.afterFrame w read .accepted).applyReplay k g n p = t at ht ⊢
  generalize (s.afterFrame w read .accepted).noteMismatch k g n p = v at ht hnoted hfeed
  rw [hnoted] at ht
  refine ⟨by rw [ht]; rfl, by rw [ht]; rfl, by rw [ht]; rfl, by rw [ht]; rfl, by rw [ht]; rfl, fun hmismatch => ?_, fun hmatch => ?_⟩
  · rw [if_pos ((s.image.mismatches_iff g n p).mpr hmismatch)] at hfeed
    rw [ht, Feed.recordAll_cons, ← hfeed]
    rfl
  · rw [if_neg fun h => hmatch ((s.image.mismatches_iff g n p).mp h)] at hfeed
    rw [ht, ← hfeed]
    rfl

end Sys2Proof.Machine
end

section
/-! PROOFS. Which frames are rejected, and what a frame with the own id does (R140 to R142): O55. -/

namespace Sys2Proof.Machine

theorem Level.ofCode_condition {n : Nat} (h : 1 ≤ n ∧ n ≤ 5) : ∃ l, Level.ofCode n = some l ∧ l ≠ .normal := by
  obtain ⟨hlow, hhigh⟩ := h
  obtain rfl | rfl | rfl | rfl | rfl : n = 1 ∨ n = 2 ∨ n = 3 ∨ n = 4 ∨ n = 5 := by omega
  all_goals exact ⟨_, rfl, by decide⟩

theorem Level.ofCode_other {n : Nat} (h : ¬(1 ≤ n ∧ n ≤ 5)) : Level.ofCode n = none ∨ Level.ofCode n = some .normal := by
  obtain rfl | hn : n = 0 ∨ 6 ≤ n := by omega
  · exact .inr rfl
  · obtain ⟨m, rfl⟩ : ∃ m, n = m + 6 := ⟨n - 6, by omega⟩
    exact .inl rfl

/-- An announcement is accepted exactly with a level of a condition and the fields its kind allows (R140, checks 3 to 5). -/
theorem judgeAnnouncement_cases (o : StationId) (kind : NoticeKind) (p : BitVec 36) :
    let good : Prop := (1 ≤ (p.extractLsb' 22 3).toNat ∧ (p.extractLsb' 22 3).toNat ≤ 5) ∧
      ((kind = .raise ∧ p.getLsbD 21 = true) ∨ (kind = .clear ∧ p.getLsbD 21 = false) ∨
        (kind = .state ∧ (p.getLsbD 21 = true ∨ p.getLsbD 20 = false)))
    (good → ∃ f, judgeAnnouncement o kind p = .accepted o f) ∧ (¬good → judgeAnnouncement o kind p = .malformed) := by
  have hkind (l : Level) : announcementValid kind (readRecord p l) = true ↔ l ≠ .normal ∧
      ((kind = .raise ∧ p.getLsbD 21 = true) ∨ (kind = .clear ∧ p.getLsbD 21 = false) ∨
        (kind = .state ∧ (p.getLsbD 21 = true ∨ p.getLsbD 20 = false))) := by
    unfold announcementValid readRecord
    generalize p.getLsbD 21 = active
    generalize p.getLsbD 20 = acked
    cases kind <;> cases active <;> cases acked <;> simp
  unfold judgeAnnouncement
  refine ⟨fun ⟨hlevel, hfields⟩ => ?_, fun hbad => ?_⟩
  · obtain ⟨l, hl, hcondition⟩ := Level.ofCode_condition hlevel
    rw [hl]
    exact ⟨_, if_pos ((hkind l).mpr ⟨hcondition, hfields⟩)⟩
  · cases hl : Level.ofCode (p.extractLsb' 22 3).toNat with
    | none => rfl
    | some l =>
      refine if_neg fun hvalid => hbad ?_
      obtain ⟨hcondition, hfields⟩ := (hkind l).mp hvalid
      refine ⟨by_contra fun hlevel => ?_, hfields⟩
      rcases Level.ofCode_other hlevel with h | h <;> rw [hl] at h
      · cases h
      · exact hcondition (Option.some.inj h)

/-- A frame with a good CRC is accepted exactly with good fields (R140). -/
theorem judgeFrame_cases (read : BitVec 54) :
    let key := read.extractLsb' 44 10
    let payload := read.extractLsb' 8 36
    let rank := key.toNat / 32 % 8
    let level := (payload.extractLsb' 22 3).toNat
    let active := payload.getLsbD 21
    let acked := payload.getLsbD 20
    let crcGood := frameCrc key payload = read.extractLsb' 0 8
    let fieldsGood := rank = 2 ∨ rank = 4 ∨
      (1 ≤ level ∧ level ≤ 5 ∧
        ((rank = 0 ∧ active = true) ∨ (rank = 1 ∧ active = false) ∨ (rank = 3 ∧ (active = true ∨ acked = false))))
    (¬crcGood → judgeFrame read = .crcError) ∧ (crcGood → ¬fieldsGood → judgeFrame read = .malformed) ∧
      (crcGood → fieldsGood → ∃ f, judgeFrame read = .accepted (Fin.ofNat 32 (key.toNat % 32)) f) := by
  simp only
  unfold judgeFrame
  simp only
  generalize read.extractLsb' 44 10 = key
  generalize read.extractLsb' 8 36 = payload
  generalize hrank : key.toNat / 32 % 8 = rank
  have hannouncement := judgeAnnouncement_cases (Fin.ofNat 32 (key.toNat % 32))
  refine ⟨fun hcrc => if_neg hcrc, fun hcrc hbad => ?_, fun hcrc hgood => ?_⟩ <;> rw [if_pos hcrc]
  · rcases rank with _ | _ | _ | _ | _ | n
    · exact (hannouncement .raise payload).2 fun h => hbad (by simpa [and_assoc] using h)
    · exact (hannouncement .clear payload).2 fun h => hbad (by simpa [and_assoc] using h)
    · exact absurd (.inl rfl) hbad
    · exact (hannouncement .state payload).2 fun h => hbad (by simpa [and_assoc] using h)
    · exact absurd (.inr (.inl rfl)) hbad
    · rfl
  · rcases rank with _ | _ | _ | _ | _ | n
    · exact (hannouncement .raise payload).1 (by simpa [and_assoc] using hgood)
    · exact (hannouncement .clear payload).1 (by simpa [and_assoc] using hgood)
    · exact ⟨_, rfl⟩
    · exact (hannouncement .state payload).1 (by simpa [and_assoc] using hgood)
    · exact ⟨_, rfl⟩
    · omega

/-- A receiver has no frame in flight, and then no queue entry is on the line (R71, R128). -/
theorem State.flightSound_receiver {s : State} (h : s.flightSound = true) (hrst : s.rst = false) {w : Window}
    (hwindow : s.line.window = some w) (hrole : w.role = .receiver) : w.flight = none ∧ lineEntry s.queue = none := by
  simp only [State.flightSound, hrst, hwindow, hrole, Bool.false_or, Bool.and_eq_true, decide_eq_true_eq, iff_true,
    Option.map_eq_none_iff] at h
  exact ⟨h.1.2, h.2⟩

/-- Settles O55: the judgement by CRC and fields, and the clash path of R142 at a receiver, which has no entry on the line. -/
theorem rejectedFramesAreCountedAndClashesEnterQuiet : Obligations.RejectedFramesAreCountedAndClashesEnterQuiet := by
  unfold Obligations.RejectedFramesAreCountedAndClashesEnterQuiet
  intro s w read hlistens
  have hread := hlistens.readsFrame
  have hframe := hlistens.frameRead_eq read
  have hexec := exec_event_off (c := .frameJudged read) (f := State.judge read) rfl hlistens.1
  obtain ⟨hcrcError, hmalformed, haccepted⟩ := judgeFrame_cases read
  have hown {o : StationId} (h : o.val = s.id.val) : o = s.id := Fin.ext h
  obtain ⟨hnot, _⟩ | ⟨_, ⟨hv, ht⟩ | ⟨hv, ht⟩ | ⟨o, f, hv, hout⟩⟩ := s.judge_cases read
  · rw [hread] at hnot; cases hnot
  · refine ⟨fun _ => ?_, fun hcrc hbad => ?_, fun hcrc hgood _ _ => ?_, fun hcrc hgood _ _ _ => ?_⟩
    · rw [hexec, ht, hframe, State.crcCounted, satInc_counter]
      rfl
    · exact nomatch (hmalformed hcrc hbad).symm.trans hv
    all_goals
      obtain ⟨f, hf⟩ := haccepted hcrc hgood
      exact nomatch hf.symm.trans hv
  · refine ⟨fun hcrc => ?_, fun _ _ => ?_, fun hcrc hgood _ _ => ?_, fun hcrc hgood _ _ _ => ?_⟩
    · exact nomatch (hcrcError hcrc).symm.trans hv
    · rw [hexec, ht, hframe, State.malformedCounted, satInc_counter]
      rfl
    all_goals
      obtain ⟨f, hf⟩ := haccepted hcrc hgood
      exact nomatch hf.symm.trans hv
  · have horigin {g : Frame} (hg : judgeFrame read = .accepted (Fin.ofNat 32 ((read.extractLsb' 44 10).toNat % 32)) g)
        (hid : (read.extractLsb' 44 10).toNat % 32 = s.id.val) : o = s.id := by
      obtain ⟨rfl, _⟩ := Verdict.accepted.inj (hv.symm.trans hg)
      exact Fin.ofNat_eq_of_val hid.symm
    refine ⟨fun hcrc => ?_, fun hcrc hbad => ?_, fun hcrc hgood hid hquiet => ?_, fun hcrc hgood hid hquiet hflight => ?_⟩
    · exact nomatch (hcrcError hcrc).symm.trans hv
    · exact nomatch (hmalformed hcrc hbad).symm.trans hv
    all_goals
      obtain ⟨g, hg⟩ := haccepted hcrc hgood
      have ho := horigin hg hid
    · obtain ⟨_, _, ht⟩ | ⟨_, hnot, _⟩ | ⟨hnot, _⟩ := hout
      · rw [hexec, ht, hframe]
      · exact absurd hquiet hnot
      · exact absurd ho hnot
    · obtain ⟨_, hnot, _⟩ | ⟨_, _, ht⟩ | ⟨hnot, _⟩ := hout
      · exact absurd hnot hquiet
      · obtain ⟨hrst, hstation, hposition, hwindow, hrole, _⟩ := hlistens
        obtain ⟨hnone, hoff⟩ := State.flightSound_receiver hflight hrst hwindow hrole
        have hstop : Window.stopSending { w with received := msbBits read, judgement := some .accepted } =
            { w with received := msbBits read, judgement := some .accepted } := by
          rw [Window.stopSending, ← hrole, ← hnone]
        rw [hexec, ht, hframe]
        by_cases hl : s.station = .listen
        · rw [if_pos hl, State.enterQuiet_of_leaveGroup
            (State.leaveGroup_out (s := s.afterFrame w read .accepted) (by rw [State.afterFrame, hl]; rfl) .lost)]
          rfl
        · have hin : (s.afterFrame w read .accepted).station.participates = true := by
            rcases hstation with h | h | h | h
            · exact absurd h hl
            · rw [State.afterFrame, h]; rfl
            · rw [State.afterFrame, h]; rfl
            · exact absurd h hquiet
          have hleft : (s.afterFrame w read .accepted).line.leave =
              { (s.afterFrame w read .accepted).line with
                tx := [], deferredMark := false, ownMark := false
                sweep := s.line.sweep.map (fun p => { p with participant := false }) } := by
            simp only [LineEngine.leave, State.afterFrame, Option.map_some, hstop]
          rw [if_neg hl, State.enterQuiet_of_leaveGroup
            (State.leaveGroup_none (s := s.afterFrame w read .accepted) hin hoff .lost), hleft]
          rfl
      · exact absurd ho hnot

end Sys2Proof.Machine
end

section
/-! PROOFS. Marks, the round timer, the edges of a round and the sweep (R104 to R115): O40, O41, O43, O46, O47. -/

namespace Sys2Proof.Machine

theorem Position.lineIdle_iff (p : Position) : p.lineIdle = true ↔ p = .seek ∨ p = .idle := by
  cases p <;> simp [Position.lineIdle]

/-- Settles O40: the effects of R104 on the idle line, and nothing elsewhere. -/
theorem markStartsARound : Obligations.MarkStartsARound := by
  unfold Obligations.MarkStartsARound
  intro s hrst
  rw [exec_event_off (f := State.recogniseMark) rfl hrst, State.recogniseMark]
  refine ⟨fun hstation hidle => ?_, fun hnot => ?_⟩
  · rw [if_pos (Bool.and_eq_true_iff.mpr ⟨StationState.observes_iff.mpr hstation, s.line.position.lineIdle_iff.mpr hidle⟩)]
    rfl
  · rw [if_neg]
    rw [Bool.and_eq_true_iff, StationState.observes_iff, Position.lineIdle_iff]
    rintro ⟨hstation, hidle⟩
    rcases hnot with h | h | h | ⟨f, b, h⟩
    · simp [h] at hstation
    · simp [h] at hstation
    · simp [h] at hidle
    · simp [h] at hidle

/-- Settles O41: the cases of the expiry by what the engine is doing (R105), and the mark not recognised (R106). -/
theorem roundTimerDrivesOrDefersTheMark : Obligations.RoundTimerDrivesOrDefersTheMark := by
  unfold Obligations.RoundTimerDrivesOrDefersTheMark
  intro s hrst
  rw [exec_event_off (f := State.roundExpiry) rfl hrst, exec_event_off (f := State.missOwnMark) rfl hrst]
  unfold State.roundExpiry State.missOwnMark
  refine ⟨fun hruns => ?_, fun hstopped => ?_, fun hmark hstation hidle => ?_, fun hmark => ?_⟩
  · rw [if_pos (Option.isSome_iff_ne_none.mpr hruns)]
    refine ⟨fun hstation hidle => ?_, fun hstation hround => ?_, fun hstation => ?_⟩
    · have hin := StationState.participates_iff.mpr hstation
      have hnot : s.line.position.inRound = false := by rcases hidle with h | h <;> rw [h] <;> rfl
      have hline := s.line.position.lineIdle_iff.mpr hidle
      simp only [hin, hnot, hline, if_true, Bool.false_eq_true, if_false]
      rfl
    · have hin := StationState.participates_iff.mpr hstation
      have hround : s.line.position.inRound = true := by obtain ⟨f, b, h⟩ := hround; rw [h]; rfl
      simp only [hin, hround, if_true]
    · have hout : s.station.participates = false := by rcases hstation with h | h <;> rw [h] <;> rfl
      simp only [hout, Bool.false_eq_true, if_false]
  · rw [if_neg (by rw [hstopped]; decide)]
  · have hin := StationState.participates_iff.mpr hstation
    have hline := s.line.position.lineIdle_iff.mpr hidle
    rw [if_pos (by rw [hmark, hline, hin]; rfl)]
    rfl
  · rw [if_neg (by simp [hmark])]

/-! ### The edges of a round (R109, R115, R145) -/

/-- What is sent in each bit time of two plans laid over one another. -/
theorem overlay_getD (later plan : List Bool) (n : Nat) :
    (overlay plan later).getD n false = (plan.getD n false || later.getD n false) := by
  induction later generalizing plan n with
  | nil => simp
  | cons drive later ih =>
    rw [overlay_cons]
    cases n with
    | zero => cases plan <;> simp
    | succ n =>
      rw [List.getD_cons_succ, ih plan.tail n, List.getD_cons_succ]
      cases plan <;> simp

/-- After a trailing edge a station of the group sends its own census slot alone. -/
theorem State.censusSlotTx_getD (s : State) (n : Nat) :
    s.censusSlotTx.getD n false = (s.station.participates && decide (n = 1 + s.id.val)) := by
  unfold State.censusSlotTx
  cases s.station.participates with
  | false => simp
  | true =>
    rw [if_pos rfl, Bool.true_and]
    by_cases hlt : n < 1 + s.id.val
    · rw [List.getD_append _ _ _ _ (by simpa using hlt), decide_eq_false (by omega)]
      simp
    · rw [List.getD_append_right _ _ _ _ (by simpa using hlt), List.length_replicate]
      obtain rfl | hgt : n = 1 + s.id.val ∨ 1 + s.id.val < n := by omega
      · simp
      · obtain ⟨m, hm⟩ : ∃ m, n - (1 + s.id.val) = m + 1 := ⟨n - (1 + s.id.val) - 1, by omega⟩
        rw [hm, decide_eq_false (by omega)]
        simp

/-- Settles O43: the trailing edge, the receipt slot and the end of the round, each by its guard. -/
theorem edgesSlotsAndRoundEnd : Obligations.EdgesSlotsAndRoundEnd := by
  unfold Obligations.EdgesSlotsAndRoundEnd
  intro s hrst hstation
  have hobserves := StationState.observes_iff.mpr hstation
  have hfollows {f : Field} {b : Nat} (h : s.line.position = .round f b) : s.follows = true := by
    rw [State.follows, hobserves, h]
    rfl
  simp only [← StationState.participates_iff, Bool.decide_eq_true]
  refine ⟨fun b hposition => ?_, fun k b w hposition hwindow => ⟨fun hin hjudged hlow hhigh => ?_, fun hnot => ?_⟩,
    fun b hend hoff => ?_, fun k b hposition hframe => ?_⟩
  · rw [exec_event_off (f := State.trailingEdge) rfl hrst, State.trailingEdge]
    simp only [hposition, hobserves, if_true]
    exact ⟨_, rfl, rfl, fun n => by rw [overlay_getD, State.censusSlotTx_getD]⟩
  all_goals first
    | rw [exec_event_off (f := State.driveReceipt) rfl hrst, State.driveReceipt]
    | rw [exec_event_off (f := State.finishRound) rfl hrst, State.finishRound]
  · have hslot : s.line.position.beforeSlot s.id = true := by
      rw [hposition]
      exact decide_eq_true ⟨hlow, hhigh⟩
    have haccepted : s.line.accepted = true := by simp [LineEngine.accepted, hwindow, hjudged]
    rw [if_pos (by rw [hfollows hposition, hin, hslot, haccepted]; rfl)]
  · rw [if_neg]
    have haccepted : s.line.accepted = decide (w.judgement = some .accepted) := by simp [LineEngine.accepted, hwindow]
    rw [haccepted]
    rcases hnot with h | h <;> simp [h]
  · have hbefore : s.follows = true ∧ s.line.beforeRoundEnd s.image.windows = true := by
      rcases hend with h | ⟨k, h, hframe, hused⟩
      · exact ⟨hfollows h, by simp [LineEngine.beforeRoundEnd, h]⟩
      · exact ⟨hfollows h, by simp [LineEngine.beforeRoundEnd, Position.pastFrame, h, hframe, hused]⟩
    rw [if_pos (by rw [hbefore.1, hbefore.2, hoff]; rfl), LineEngine.endRound]
    cases hdeferred : s.line.deferredMark <;> cases hin : s.station.participates <;> simp [LineEngine.driveMark] <;> rfl
  · have hnot : s.line.beforeRoundEnd s.image.windows = false := by
      simp [LineEngine.beforeRoundEnd, Position.pastFrame, hposition, hframe]
    rw [if_neg (by rw [hnot]; simp)]

/-! ### The sweep (R111, R112, R166) -/

/-- Settles O46: the start and the end of the sweep by their guards, and what GTX follows in between. -/
theorem sweepShowsTheValueRead : Obligations.SweepShowsTheValueRead := by
  unfold Obligations.SweepShowsTheValueRead
  intro s hrst hstation
  have hobserves := StationState.observes_iff.mpr hstation
  have hfollows {f : Field} {b : Nat} (h : s.line.position = .round f b) : s.follows = true := by
    rw [State.follows, hobserves, h]
    rfl
  simp only [← StationState.participates_iff, Bool.decide_eq_true]
  refine ⟨fun b hposition hsweep => ?_, fun hposition hsweep => ?_, fun b p hposition hsweep htx => ?_,
    fun b p read hposition hsweep => ?_⟩
  · rw [exec_event_off (f := State.startSweep) rfl hrst, State.startSweep,
      if_pos (by rw [hfollows hposition, hposition, hsweep]; rfl), hposition]
    rfl
  · have hleft : s.line.position.bitsToSweep = 0 := by rw [hposition]; rfl
    rw [exec_event_off (f := State.startSweep) rfl hrst, State.startSweep,
      if_pos (by rw [hfollows hposition, hposition, hsweep]; rfl), LineEngine.passTo, hleft, List.drop_zero, ← hposition]
  · have hstart : s.startBitDrive = false := by
      simp [State.startBitDrive, Position.atStartBit, hposition]
    rw [State.gtx, hrst, hstart, htx, LineEngine.sweepDrive, hposition, hsweep]
    simp [Bool.and_assoc]
  · rw [exec_event_off (f := State.finishSweep read) rfl hrst, State.finishSweep, hposition, hsweep]
    simp only [hobserves, if_true, State.takeSweep, LineEngine.passTo, Position.bitsLeft]
    by_cases h : p.tookPart = true ∧ s.station.participates = true
    · rw [if_pos (Bool.and_eq_true_iff.mpr h)]
      exact ⟨_, rfl, rfl, rfl, (if_pos h).symm⟩
    · rw [if_neg (fun hb => h (Bool.and_eq_true_iff.mp hb))]
      exact ⟨_, rfl, rfl, rfl, (if_neg h).symm⟩

/-! ### The largest code (R112) -/

/-- What a participant drives in a sweep that reads `read`, with dropout. -/
def sweepDriven (code read : Code) : Code :=
  sweepSentCode { tookPart := true, code := code, participant := true, sent := [], read := [] } read

/-- A code above the value read would show a bit there. -/
theorem le_of_sweepDriven : ∀ code read : Code, read ||| sweepDriven code read = read → code.toNat ≤ read.toNat := by
  decide

/-- What participants with codes up to the value read drive are beginnings of it, one inside the other. -/
theorem sweepDriven_or : ∀ read c d : Code, c.toNat ≤ read.toNat → d.toNat ≤ read.toNat →
    sweepDriven c read ||| sweepDriven d read = sweepDriven c read ∨
      sweepDriven c read ||| sweepDriven d read = sweepDriven d read := by
  decide

/-- A participant that drives the whole value read has it as its code. -/
theorem eq_of_sweepDriven : ∀ read c : Code, c.toNat ≤ read.toNat → sweepDriven c read = read → c = read := by
  decide

/-- What has been driven before, and what any participant drives, is in the value read. -/
theorem or_foldl_sweepDriven (codes : List Code) (start read : Code) :
    (codes.foldl (fun r c => r ||| sweepDriven c read) start) ||| start =
        codes.foldl (fun r c => r ||| sweepDriven c read) start ∧
      ∀ c ∈ codes, (codes.foldl (fun r c => r ||| sweepDriven c read) start) ||| sweepDriven c read =
        codes.foldl (fun r c => r ||| sweepDriven c read) start := by
  induction codes generalizing start with
  | nil => exact ⟨BitVec.or_self, nofun⟩
  | cons d codes ih =>
    obtain ⟨hstart, hrest⟩ := ih (start ||| sweepDriven d read)
    rw [List.foldl_cons]
    refine ⟨?_, fun c hc => ?_⟩
    · rw [← hstart, BitVec.or_assoc]
      congr 1
      rw [BitVec.or_assoc, BitVec.or_comm (sweepDriven d read), ← BitVec.or_assoc, BitVec.or_self]
    · rcases List.mem_cons.mp hc with rfl | hc
      · rw [← hstart, BitVec.or_assoc]
        congr 1
        rw [BitVec.or_assoc, BitVec.or_self]
      · exact hrest c hc

/-- What the participants drive together is what was there before, or what one of them drives. -/
theorem foldl_sweepDriven_mem {read : Code} (codes : List Code) (hle : ∀ c ∈ codes, c.toNat ≤ read.toNat) {first : Code}
    (hfirst : first.toNat ≤ read.toNat) :
    ∃ c ∈ first :: codes, codes.foldl (fun r c => r ||| sweepDriven c read) (sweepDriven first read) = sweepDriven c read := by
  induction codes generalizing first with
  | nil => exact ⟨first, List.mem_singleton_self _, rfl⟩
  | cons d codes ih =>
    have hd := hle d List.mem_cons_self
    have hrest : ∀ c ∈ codes, c.toNat ≤ read.toNat := fun c hc => hle c (List.mem_cons_of_mem d hc)
    rw [List.foldl_cons]
    rcases sweepDriven_or read first d hfirst hd with h | h <;> rw [h]
    · obtain ⟨c, hc, heq⟩ := ih hrest hfirst
      exact ⟨c, by rcases List.mem_cons.mp hc with rfl | hc <;> simp [*], heq⟩
    · obtain ⟨c, hc, heq⟩ := ih hrest hd
      exact ⟨c, List.mem_cons_of_mem first hc, heq⟩

/-- The largest of some codes, when one of them reaches the bound. -/
theorem foldl_max_eq {codes : List Code} {n m : Nat} (hle : ∀ c ∈ codes, c.toNat ≤ n) (hm : m ≤ n)
    (hmem : m = n ∨ ∃ c ∈ codes, c.toNat = n) : codes.foldl (fun m c => max m c.toNat) m = n := by
  induction codes generalizing m with
  | nil => exact hmem.resolve_right fun ⟨c, hc, _⟩ => nomatch hc
  | cons d codes ih =>
    have hd := hle d List.mem_cons_self
    refine ih (fun c hc => hle c (List.mem_cons_of_mem d hc)) (max_le hm hd) ?_
    rcases hmem with rfl | ⟨c, hc, heq⟩
    · exact .inl (max_eq_left hd)
    · rcases List.mem_cons.mp hc with rfl | hc
      · exact .inl ((max_eq_right (heq ▸ hm)).trans heq)
      · exact .inr ⟨c, hc, heq⟩

/-- Settles O47: no participant has a code above the value read, and one that drives it whole has it as its code. -/
theorem sweepFindsTheLargestCode : Obligations.SweepFindsTheLargestCode := by
  unfold Obligations.SweepFindsTheLargestCode
  intro codes read hread
  replace hread : read = codes.foldl (fun r c => r ||| sweepDriven c read) 0 := hread
  obtain ⟨_, hin⟩ := or_foldl_sweepDriven codes 0 read
  rw [← hread] at hin
  have hle (c : Code) (hc : c ∈ codes) : c.toNat ≤ read.toNat := le_of_sweepDriven c read (hin c hc)
  refine (foldl_max_eq hle (Nat.zero_le _) ?_).symm
  cases codes with
  | nil => exact .inl (by rw [hread]; rfl)
  | cons first codes =>
    have hfirst := hle first List.mem_cons_self
    have hzero : (0 : Code) ||| sweepDriven first read = sweepDriven first read := BitVec.zero_or
    rw [List.foldl_cons, hzero] at hread
    obtain ⟨c, hc, heq⟩ := foldl_sweepDriven_mem codes (fun c hc => hle c (List.mem_cons_of_mem first hc)) hfirst
    have hwhole : sweepDriven c read = read := by rw [← heq, ← hread]
    exact .inr ⟨c, hc, by rw [eq_of_sweepDriven read c (hle c hc) hwhole]⟩

end Sys2Proof.Machine
end

section
/-! PROOFS. What the outcome of a window makes of the entry on the line, with its records (R85 to R91, R97), and what an abandonment
comes to (R12, R90, R129). -/

namespace Sys2Proof.Machine

/-- The station with a queue and the records that came with it. -/
def State.withTaken (taken : List QueueEntry × List FeedBody) (s : State) : State :=
  { s.writeAll taken.2 with queue := taken.1 }

/-! ### One outcome (R85) -/

/-- A part that is LOST. -/
theorem State.takeOutcome_lost {s : State} {e : QueueEntry} (he : lineEntry s.queue = some e) :
    s.takeOutcome .lost = s.withTaken (s.lostPart e) := by
  obtain ⟨hnone, _⟩ | ⟨g, hg, ht⟩ := s.takeOutcome_cases .lost
  · exact nomatch hnone.symm.trans he
  · obtain rfl := Option.some.inj (he.symm.trans hg)
    rw [ht, State.withTaken, State.lostPart]
    obtain ⟨hw, hs⟩ | ⟨hw, hr, hs⟩ | ⟨hw, hr, _, hs⟩ | ⟨_, _, hnot, _⟩ | ⟨_, _, hnot, _⟩ | ⟨_, _, hnot, _⟩ :=
      s.settle_cases .lost (e.counted s.id .lost) <;> simp only [QueueEntry.counted] at *
    · rw [hs, if_pos hw, State.writeSuperseded_eq]
      rfl
    · rw [hs, if_neg (by rw [hw]; exact Bool.false_ne_true), if_pos hr]
      rfl
    · rw [hs, if_neg (by rw [hw]; exact Bool.false_ne_true), if_neg (by rw [hr]; exact Bool.false_ne_true)]
      rfl
    all_goals exact absurd rfl hnot

/-- An outcome counts as an attempt that brings the receipts of a map, the own id left out (R86). -/
def WindowOutcome.brings (own : StationId) (map : IdSet) : WindowOutcome → Prop
  | .lost => False
  | .abandoned => map = 0
  | .sent slots => map = idMinus slots (idBit own)

theorem QueueEntry.counted_eq {own : StationId} {map : IdSet} {o : WindowOutcome} (h : o.brings own map) (e : QueueEntry) :
    e.counted own o = { e with attempts := e.attempts + 1, receipts := e.receipts ||| map } := by
  cases o with
  | lost => exact h.elim
  | abandoned =>
    have hzero : e.receipts ||| 0 = e.receipts := BitVec.or_zero
    rw [show map = 0 from h, hzero]
    rfl
  | sent slots => rw [show map = idMinus slots (idBit own) from h]; rfl

theorem WindowOutcome.brings.ne_lost {own : StationId} {map : IdSet} {o : WindowOutcome} (h : o.brings own map) : o ≠ .lost := by
  rintro rfl
  exact h

/-- An entry on the line that is a REPLAY bears no flags (R69). -/
theorem QueueEntry.Ok.replay_unflagged {id : StationId} {e : QueueEntry} (h : e.Ok id) (hn : e.notice = .replay) :
    e.restage = false ∧ e.withdraw = false := by
  have hflags := h.2.1
  simp only [QueueEntry.flagsSound, hn, Bool.and_eq_true, Bool.not_eq_true'] at hflags
  exact hflags

theorem State.replayRetires_iff {s : State} {map : IdSet} {e : QueueEntry} :
    s.replayRetires map e = true ↔
      e.notice = .replay ∧ (s.missingFrom (e.receipts ||| map) = 0 ∨ s.image.retryLimit ≤ e.attempts + 1) := by
  simp [State.replayRetires]

/-- The station, where a REPLAY that retires leads to ACTIVE (R160). -/
def State.advanced (retires : Bool) (s : State) : State := { s with station := if retires then .active else s.station }

/-- An attempt, with the receipts that it brought. -/
theorem State.takeOutcome_attempt {s : State} (hq : QueueOk s.id s.queue) {e : QueueEntry} (he : lineEntry s.queue = some e)
    {map : IdSet} {o : WindowOutcome} (ho : o.brings s.id map) :
    s.takeOutcome o = (s.withTaken (s.attemptMade map s.flightSeq e)).advanced (s.replayRetires map e) := by
  have hok := hq.each e (lineEntry_some he).1
  obtain ⟨hnone, _⟩ | ⟨g, hg, ht⟩ := s.takeOutcome_cases o
  · exact nomatch hnone.symm.trans he
  obtain rfl := Option.some.inj (he.symm.trans hg)
  rw [ht, QueueEntry.counted_eq ho, State.attemptMade]
  have hmissing (r : IdSet) : idMinus s.required r = s.missingFrom r := rfl
  have hstays {retires : Bool} (h : retires = true → False) (t : State) : t.advanced retires = t := by
    rw [State.advanced, if_neg h]
  have hunflagged (hflag : e.withdraw = true ∨ e.restage = true) : s.replayRetires map e = true → False := fun h => by
    obtain ⟨hrestage, hwithdraw⟩ := hok.replay_unflagged (State.replayRetires_iff.mp h).1
    rw [hrestage, hwithdraw] at hflag
    exact hflag.elim Bool.noConfusion Bool.noConfusion
  have hoff {b : Bool} (h : b = false) : ¬b = true := by rw [h]; exact Bool.false_ne_true
  obtain ⟨hw, hs⟩ | ⟨hw, hr, hs⟩ | ⟨_, _, hlost, _⟩ | ⟨hw, hr, _, hzero, hs⟩ | ⟨hw, hr, _, hsome, hlimit, hs⟩ |
    ⟨hw, hr, _, hsome, hlimit, hs⟩ := s.settle_cases o { e with attempts := e.attempts + 1, receipts := e.receipts ||| map } <;>
    simp only [hmissing] at *
  · rw [hs, hstays (hunflagged (.inl hw)), if_pos hw, State.writeSuperseded_eq]
    rfl
  · rw [hs, hstays (hunflagged (.inr hr)), if_neg (hoff hw), if_pos hr]
    rfl
  · exact absurd hlost ho.ne_lost
  · rw [hs, if_neg (hoff hw), if_neg (hoff hr), if_pos hzero, State.retireComplete]
    cases hn : e.notice with
    | replay =>
      rw [State.replayRetires_iff.mpr ⟨hn, .inl hzero⟩, if_pos rfl]
      rfl
    | channel | ack =>
      rw [hstays (fun h => by rw [(State.replayRetires_iff.mp h).1] at hn; cases hn), if_neg nofun]
      rfl
  · rw [hs, if_neg (hoff hw), if_neg (hoff hr), if_neg hsome, if_pos hlimit, hstays]
    · rfl
    · intro h
      exact (State.replayRetires_iff.mp h).2.elim hsome fun h => absurd hlimit (Nat.not_lt.mpr h)
  · rw [hs, if_neg (hoff hw), if_neg (hoff hr), if_neg hsome, if_neg (Nat.not_lt.mpr hlimit), State.retirePartial]
    cases hn : e.notice with
    | replay =>
      rw [State.replayRetires_iff.mpr ⟨hn, .inr hlimit⟩]
      rfl
    | channel | ack =>
      rw [hstays (fun h => by rw [(State.replayRetires_iff.mp h).1] at hn; cases hn)]
      rfl

/-! ### The entry on the line of a station that leaves the group (R97) -/

theorem State.freeze_lost {s : State} {e : QueueEntry} (he : lineEntry s.queue = some e) (hstate : e.state = .candidate) :
    s.freeze .lost = s.withTaken (s.lostPart e) := by
  rw [← State.takeOutcome_lost he]
  simp [State.freeze, he, hstate]

/-- How an entry taken as ABANDONED leaves a station that leaves the group: a REPLAY rests (R97). -/
def State.frozenPart (s : State) (seq : Seq) (e : QueueEntry) : List QueueEntry × List FeedBody :=
  if e.notice = .replay then s.replayRests e else s.attemptMade 0 seq e

theorem State.freeze_abandoned {s : State} (hq : QueueOk s.id s.queue) {e : QueueEntry} (he : lineEntry s.queue = some e)
    {o : WindowOutcome} (ho : e.state = .sending ∨ o = .abandoned) :
    s.freeze o = s.withTaken (s.frozenPart s.flightSeq e) := by
  have hout : (if e.state = .sending then WindowOutcome.abandoned else o) = .abandoned := by
    rcases ho with h | h
    · rw [if_pos h]
    · rw [h, ite_self]
  have hmem := (lineEntry_some he).1
  rw [State.freeze, he, State.frozenPart]
  simp only [hout]
  by_cases hn : e.notice = .replay
  · have hsame : updateSlot e.slot (fun e => { e with attempts := e.attempts + 1, state := .resting }) s.queue =
        updateSlot e.slot (fun _ => { e with state := .resting, attempts := e.attempts + 1 }) s.queue := by
      refine List.map_congr_left fun g hg => ?_
      by_cases hs : g.slot = e.slot
      · rw [if_pos hs, if_pos hs, hq.eq_of_slot hg hmem hs]
      · rw [if_neg hs, if_neg hs]
    rw [if_pos ⟨hn, by decide⟩, if_pos hn, hsame]
    rfl
  · rw [if_neg fun h => hn h.1, if_neg hn, State.takeOutcome_attempt hq he (map := 0) (o := .abandoned) rfl, State.advanced,
      if_neg fun h => hn (State.replayRetires_iff.mp h).1]

/-! ### An abandonment (R12, R90, R129) -/

theorem satInc_abandons (v : BitVec 8) : satInc v = if v = 0xFF#8 then 0xFF#8 else v + 1 := by
  have hones : BitVec.allOnes 8 = 0xFF#8 := by decide
  rw [satInc, hones]
  split
  · assumption
  · rfl

theorem abandonLimit_le_satInc (v : BitVec 8) : Config.abandonLimit ≤ (satInc v).toNat ↔ 2 ≤ v.toNat := by
  rw [satInc_abandons]
  have hv := v.isLt
  by_cases h : v = 0xFF#8
  · subst h
    decide
  · rw [if_neg h]
    have hne : v.toNat ≠ 255 := fun hv => h (BitVec.eq_of_toNat_eq hv)
    have hadd : (v + 1).toNat = v.toNat + 1 := by
      rw [BitVec.toNat_add]
      exact Nat.mod_eq_of_lt (by simp; omega)
    rw [hadd, Config.abandonLimit]
    omega

theorem State.countAbandon_flightSeq (s : State) : s.countAbandon.flightSeq = s.flightSeq := rfl

/-- Below the third abandonment the queue takes it as an attempt without receipts, whoever takes it first. -/
theorem State.abandon_few {s : State} (hq : QueueOk s.id s.queue) {e : QueueEntry} (he : lineEntry s.queue = some e)
    (hfew : s.line.abandons.toNat < 2) (first : TakenFirst) :
    s.abandon first =
      ((s.withTaken (s.attemptMade 0 s.flightSeq e)).advanced (s.replayRetires 0 e)).countAbandon := by
  have hline : (s.takeOutcome .abandoned).line = s.line := by rw [State.takeOutcome_frame]
  have hnot : ¬Config.abandonLimit ≤ (satInc s.line.abandons).toNat := fun h =>
    absurd ((abandonLimit_le_satInc _).mp h) (Nat.not_le.mpr hfew)
  cases first with
  | owner =>
    have hmany : (s.takeOutcome .abandoned).countAbandon.tooManyAbandons = false := by
      rw [State.tooManyAbandons, State.countAbandon, hline]
      exact decide_eq_false hnot
    simp only [State.abandon, hmany, Bool.false_eq_true, if_false]
    rw [State.takeOutcome_attempt hq he (map := 0) (o := .abandoned) rfl]
  | controller =>
    have hmany : s.countAbandon.tooManyAbandons = false := decide_eq_false hnot
    simp only [State.abandon, hmany, Bool.false_eq_true, if_false]
    rw [State.takeOutcome_attempt (s := s.countAbandon) hq he (map := 0) (o := .abandoned) rfl]
    rfl

/-- The queue's part of the third abandonment: a REPLAY rests where the controller takes it first (R90, R97). -/
def State.thirdPart (s : State) (first : TakenFirst) (seq : Seq) (e : QueueEntry) : List QueueEntry × List FeedBody :=
  if first = .controller ∧ e.notice = .replay then s.replayRests e else s.attemptMade 0 seq e

/-- The station that has left the group and entered QUIET for a cause (R13). -/
def State.quietFrom (cause : QuietCause) (s : State) : State :=
  { s with
    station := .quiet, cause := cause, silenceTimer := none, line := s.line.leave
    feed := s.feed.arrive s.image.watermark s.line.round true (.stationQuiet cause)
    ann := { s.ann with link := false, code := s.ann.own } }

/-- The third abandonment takes the station QUIET, the attempt counted once in either order. -/
theorem State.abandon_third {s : State} (hq : QueueOk s.id s.queue) (hin : s.station.participates = true) {e : QueueEntry}
    (he : lineEntry s.queue = some e) (hmany : 2 ≤ s.line.abandons.toNat) (first : TakenFirst) :
    s.abandon first = ((s.withTaken (s.thirdPart first s.flightSeq e)).countAbandon).quietFrom .txFault := by
  have hlimit : Config.abandonLimit ≤ (satInc s.line.abandons).toNat := (abandonLimit_le_satInc _).mpr hmany
  cases first with
  | owner =>
    have htoo : (s.takeOutcome .abandoned).countAbandon.tooManyAbandons = true := by
      have hline : (s.takeOutcome .abandoned).line = s.line := by rw [State.takeOutcome_frame]
      rw [State.tooManyAbandons, State.countAbandon, hline]
      exact decide_eq_true hlimit
    have hin' : (s.takeOutcome .abandoned).countAbandon.station.participates = true := by
      rcases State.takeOutcome_station .abandoned s with h | h
      · exact (congrArg StationState.participates h).trans hin
      · exact congrArg StationState.participates h
    have hoff : lineEntry (s.takeOutcome .abandoned).countAbandon.queue = none := (State.takeOutcome_queue hq .abandoned).2
    have hleft := State.leaveGroup_none hin' hoff .lost
    have hthird : s.thirdPart .owner s.flightSeq e = s.attemptMade 0 s.flightSeq e := if_neg fun h => nomatch h.1
    simp only [State.abandon, htoo, if_true]
    rw [State.enterQuiet_of_leaveGroup hleft, State.takeOutcome_attempt hq he (map := 0) (o := .abandoned) rfl, hthird]
    rfl
  | controller =>
    have htoo : s.countAbandon.tooManyAbandons = true := decide_eq_true hlimit
    have hfrozen := State.freeze_abandoned (s := s.countAbandon) hq he (o := .abandoned) (.inr rfl)
    have hleft : s.countAbandon.leaveGroup .abandoned =
        { s.countAbandon.withTaken (s.countAbandon.frozenPart s.countAbandon.flightSeq e) with
          line := s.countAbandon.line.leave } := by
      rw [State.leaveGroup, if_pos (by exact hin), hfrozen]
      rfl
    have hthird : s.thirdPart .controller s.flightSeq e = s.frozenPart s.flightSeq e := by
      rw [State.thirdPart, State.frozenPart]
      by_cases hn : e.notice = .replay
      · rw [if_pos ⟨rfl, hn⟩, if_pos hn]
      · rw [if_neg fun h => hn h.2, if_neg hn]
    simp only [State.abandon, htoo, if_true]
    rw [State.enterQuiet_of_leaveGroup hleft, hthird]
    rfl

end Sys2Proof.Machine
end

section
/-! PROOFS. The end of a station's part in a window: lost, won, sent whole, abandoned, or with its receipts (R129 to R137): O49 to
O52. -/

namespace Sys2Proof.Machine

/-! ### The parts of a frame, bit by bit -/

theorem msbBits_append {m n : Nat} (x : BitVec m) (y : BitVec n) : msbBits (x ++ y) = msbBits x ++ msbBits y := by
  simp only [msbBits]
  rw [List.range_add, List.map_append, List.map_map]
  congr 1
  · refine List.map_congr_left fun i hi => ?_
    have hlt : i < m := List.mem_range.mp hi
    simp [BitVec.getMsbD_append, hlt]
  · refine List.map_congr_left fun i _ => ?_
    simp [BitVec.getMsbD_append]

theorem msbBits_getMsbD {n : Nat} (v : BitVec n) {i : Nat} (hi : i < n) : (msbBits v).getD i false = v.getMsbD i := by
  simp [msbBits, hi]

theorem Flight.bits_eq (f : Flight) : f.bits = msbBits f.key ++ (msbBits f.payload ++ msbBits f.crc) := by
  have h : f.bits = msbBits (f.key ++ f.payload ++ f.crc) := rfl
  rw [h, msbBits_append, msbBits_append, List.append_assoc]

/-- The bits of the key are sent first. -/
theorem Flight.bitAt_key (f : Flight) {bit : Nat} (hlow : 1 ≤ bit) (hhigh : bit ≤ 10) :
    f.bitAt bit = f.key.getMsbD (bit - 1) := by
  have hlt : bit - 1 < 54 := by omega
  have hkey : bit - 1 < 10 := by omega
  have hbits : f.bits.getD (bit - 1) false = f.bitAt bit := msbBits_getMsbD f.values hlt
  rw [← hbits, Flight.bits_eq, List.getD_append _ _ _ _ (by simpa [msbBits_length] using hkey), msbBits_getMsbD _ hkey]

theorem Flight.take_bits (f : Flight) {bit : Nat} (hhigh : bit ≤ 10) :
    f.bits.take (bit - 1) = (msbBits f.key).take (bit - 1) := by
  rw [Flight.bits_eq, List.take_append_of_le_length]
  rw [msbBits_length]
  omega

/-! ### The station with a part in the window -/

section
variable {s : State} {role : Role} {w : Window} {f : Flight} {e : QueueEntry}

theorem State.sends.flightSeq_eq (h : s.sends role w f e) : s.flightSeq = f.payload.extractLsb' 25 8 := by
  obtain ⟨_, _, hwindow, _, hflight, _⟩ := h
  simp [State.flightSeq, hwindow, hflight]

theorem State.sends.participates (h : s.sends role w f e) : s.station.participates = true :=
  StationState.participates_iff.mpr h.2.1

theorem State.sends.queueOk (hq : s.queueSound = true) : QueueOk s.id s.queue := (s.queueSound_iff.mp hq).1

end

/-- The engine of a station that reads the rest of its window as a receiver, after bit `bit`. -/
def LineEngine.readsOn (w : Window) (received : List Bool) (bit : Nat) (l : LineEngine) : LineEngine :=
  { l with
    position := .round (.window l.windowsUsed) (bit + 1), tx := []
    window := some { w with role := .receiver, flight := none, received := received } }

theorem LineEngine.readsOn_eq {l : LineEngine} {w : Window} (h : l.window = some w) (r : List Bool) (bit : Nat) :
    ((l.receive r).stopSending).pastBit bit = l.readsOn w r bit := by
  simp [LineEngine.receive, LineEngine.stopSending, LineEngine.pastBit, LineEngine.readsOn, h, Window.stopSending]

/-- Settles O49: the contest lost, the key won, and a frame other than an ACK sent whole. -/
theorem contestAndOwnFrame : Obligations.ContestAndOwnFrame := by
  unfold Obligations.ContestAndOwnFrame
  intro s w f e b hposition hsent hq
  have hround : s.line.position.inRound = true := by rw [hposition]; rfl
  have hin : s.line.position.inWindow = true := by rw [hposition]; rfl
  refine ⟨fun bit hsends hstate hlow hhigh hbit => ?_, fun hsends hstate => ?_, fun hsends hrank => ?_⟩
  · have hflight := hsends.flightAs_eq hround hsent
    obtain ⟨hrst, _, hwindow, _, _, hline⟩ := hsends
    have hloses : 1 ≤ bit ∧ bit ≤ 10 ∧ f.bitAt bit = true ∧ s.line.position.inWindow = true :=
      ⟨hlow, hhigh, (f.bitAt_key hlow hhigh).trans hbit, hin⟩
    have hread : f.readUpTo bit = (msbBits f.key).take (bit - 1) ++ [false] := by
      rw [Flight.readUpTo, f.take_bits hhigh, hloses.2.2.1]
      rfl
    rw [exec_event_off (f := State.loseContest bit) rfl hrst, State.loseContest, hflight]
    simp only [if_pos hloses, State.takeOutcome_lost hline, hread]
    rw [LineEngine.readsOn_eq (l := (s.withTaken (s.lostPart e)).line) hwindow]
    exact ⟨_, rfl, rfl, rfl, rfl, rfl⟩
  · have hflight := hsends.flightAs_eq hround hsent
    obtain ⟨hrst, _, hwindow, _, _, hline⟩ := hsends
    obtain ⟨hmem, honline⟩ := lineEntry_some hline
    have hok := State.sends.queueOk hq
    have hqueue : s.queue.map (fun e => if e.state = .candidate then { e with state := .sending } else e) =
        updateSlot e.slot (fun _ => { e with state := .sending }) s.queue := by
      refine List.map_congr_left fun g hg => ?_
      by_cases hs : g.slot = e.slot
      · rw [if_pos hs, hok.eq_of_slot hg hmem hs, if_pos hstate]
      · rw [if_neg hs, if_neg]
        intro hc
        exact hs (congrArg (·.slot) (hok.eq_of_onLine hg hmem (by simp [QueueEntry.onLine, hc]) honline))
    rw [exec_event_off (f := State.winKey) rfl hrst, State.winKey, hflight]
    simp only [hin, if_true, hqueue]
    refine ⟨_, rfl, rfl, rfl, ?_⟩
    simp [LineEngine.receive, LineEngine.pastBit, hwindow]
  · have hflight := hsends.flightAs_eq hround hsent
    obtain ⟨hrst, _, hwindow, _⟩ := hsends
    rw [exec_event_off (f := State.sendWhole) rfl hrst]
    obtain ⟨hnone, _⟩ | ⟨g, hg, ⟨hack, _⟩ | ⟨_, ht⟩⟩ := s.sendWhole_cases
    · exact nomatch hnone.symm.trans hflight
    · obtain rfl := Option.some.inj (hflight.symm.trans hg)
      exact absurd hack hrank
    · obtain rfl := Option.some.inj (hflight.symm.trans hg)
      refine ⟨_, congrArg Host.Outcome.next ht, rfl, ?_⟩
      simp only [State.frameSent, LineEngine.endFrame, LineEngine.receive, LineEngine.pastBit, hwindow, Option.map_some]
      rfl

/-! ### Abandonments (R133, R135) -/

section
variable {s : State} {role : Role} {w : Window} {f : Flight} {e : QueueEntry}

/-- A contender that reads released where it drove in its key abandons its frame (R133). -/
theorem exec_lineFault_key (h : s.sends .contender w f e) (hposition : ∃ k b, s.line.position = .round (.window k) b)
    (hsent : w.sentWhole = false) {bit : Nat} (hlow : 1 ≤ bit) (hhigh : bit ≤ 10) (hbit : f.key.getMsbD (bit - 1) = false)
    (first : TakenFirst) :
    exec (.lineFaultAbandon bit first) s = .next { s.abandon first with
      line := (((s.abandon first).line.receive (f.readUpTo bit)).stopSending).pastBit bit } := by
  obtain ⟨k, b, hposition⟩ := hposition
  have hflight := h.flightAs_eq (by rw [hposition]; rfl) hsent
  have hin : s.line.position.inWindow = true := by rw [hposition]; rfl
  rw [exec_event_off (f := State.lineFault bit first) rfl h.1, State.lineFault, hflight]
  have hne : bit ≠ 0 := by omega
  simp only [if_neg hne]
  rw [if_pos ⟨hhigh, (f.bitAt_key hlow hhigh).trans hbit, hin⟩]
  rfl

/-- A sender that reads other than it sent in its payload or CRC abandons its frame (R135). -/
theorem exec_readBackMismatch (h : s.sends .sender w f e) (hposition : ∃ k b, s.line.position = .round (.window k) b)
    (hsent : w.sentWhole = false) {bit : Nat} (hlow : 11 ≤ bit) (hhigh : bit ≤ 54) (first : TakenFirst) :
    exec (.readBackMismatch bit first) s = .next { s.abandon first with
      line := (((s.abandon first).line.receive (f.readUpTo bit)).stopSending).pastBit bit } := by
  obtain ⟨k, b, hposition⟩ := hposition
  have hflight := h.flightAs_eq (by rw [hposition]; rfl) hsent
  rw [exec_event_off (f := State.readBackMismatch bit first) rfl h.1, State.readBackMismatch, hflight]
  exact congrArg Host.Outcome.next (if_pos ⟨hlow, hhigh⟩)

end

/-- Settles O50: in the key and behind it the frame is abandoned alike, and what that comes to is said by the counter. -/
theorem abandonmentsCountOnceAndTheThirdEntersQuiet : Obligations.AbandonmentsCountOnceAndTheThirdEntersQuiet := by
  unfold Obligations.AbandonmentsCountOnceAndTheThirdEntersQuiet
  intro s w f e command b hposition hsent hq hcommand first
  obtain ⟨k, hposition⟩ := hposition
  obtain ⟨role, r, bit, hsends, hexec⟩ : ∃ role r bit, s.sends role w f e ∧ exec (command first) s = .next { s.abandon first with
      line := (((s.abandon first).line.receive r).stopSending).pastBit bit } := by
    obtain ⟨⟨bit, rfl, hlow, hhigh, hbit⟩, hsends, _⟩ | ⟨⟨bit, rfl, hlow, hhigh⟩, hsends, _⟩ := hcommand
    · exact ⟨_, _, bit, hsends, exec_lineFault_key hsends ⟨k, b, hposition⟩ hsent hlow hhigh hbit first⟩
    · exact ⟨_, _, bit, hsends, exec_readBackMismatch hsends ⟨k, b, hposition⟩ hsent hlow hhigh first⟩
  have hseq := hsends.flightSeq_eq
  have hin := hsends.participates
  have hok := State.sends.queueOk hq
  obtain ⟨_, _, hwindow, _, _, hline⟩ := hsends
  refine ⟨_, hexec, ?_⟩
  rw [← hseq, ← satInc_abandons]
  by_cases hmany : 2 ≤ s.line.abandons.toNat
  · have hthird := State.abandon_third hok hin hline hmany first
    have hpart : (if 2 ≤ s.line.abandons.toNat ∧ first = .controller ∧ e.notice = .replay then s.replayRests e
        else s.attemptMade 0 s.flightSeq e) = s.thirdPart first s.flightSeq e := by
      rw [State.thirdPart]
      exact if_congr (and_iff_right hmany) rfl rfl
    have hleft : (s.abandon first).line.window = some w.stopSending := by
      rw [hthird]
      simp [State.quietFrom, State.countAbandon, State.withTaken, State.writeAll, LineEngine.leave, hwindow]
    rw [LineEngine.readsOn_eq hleft, hthird, hpart]
    generalize s.thirdPart first s.flightSeq e = taken
    have hnot : ¬s.line.abandons.toNat < 2 := Nat.not_lt.mpr hmany
    simp [State.quietFrom, State.countAbandon, State.withTaken, State.writeAll, LineEngine.leave, LineEngine.readsOn,
      Window.stopSending, hmany, hnot]
  · have hfew : s.line.abandons.toNat < 2 := Nat.lt_of_not_le hmany
    have habandon := State.abandon_few hok hline hfew first
    have hkept : (s.abandon first).line.window = some w := by rw [habandon]; exact hwindow
    have hpart : (if 2 ≤ s.line.abandons.toNat ∧ first = .controller ∧ e.notice = .replay then s.replayRests e
        else s.attemptMade 0 s.flightSeq e) = s.attemptMade 0 s.flightSeq e := if_neg fun h => hmany h.1
    rw [LineEngine.readsOn_eq hkept, habandon, hpart]
    generalize s.attemptMade 0 s.flightSeq e = taken
    generalize s.replayRetires 0 e = retires
    simp [State.countAbandon, State.advanced, State.withTaken, State.writeAll, LineEngine.readsOn, hmany]

/-- Settles O51: a line fault in the start bit is an abandonment that leaves no window. -/
theorem lineFaultInTheStartBitEndsTheWindow : Obligations.LineFaultInTheStartBitEndsTheWindow := by
  unfold Obligations.LineFaultInTheStartBitEndsTheWindow
  intro s w f e first hsends hsent hposition hstate hq
  have hflight := hsends.flightAs_eq (by rw [hposition]; rfl) hsent
  have hseq := hsends.flightSeq_eq
  have hin := hsends.participates
  have hok := State.sends.queueOk hq
  have hexec : exec (.lineFaultAbandon 0 first) s = .next (s.faultStartBit first) := by
    rw [exec_event_off (f := State.lineFault 0 first) rfl hsends.1, State.lineFault, hflight, hposition]
    rfl
  obtain ⟨_, _, hwindow, _, _, hline⟩ := hsends
  rw [hexec, State.faultStartBit, ← hseq, ← satInc_abandons]
  refine ⟨fun hfew => ?_, fun hmany => ?_⟩
  · have hpart : (if 2 ≤ s.line.abandons.toNat ∧ first = .controller ∧ e.notice = .replay then s.replayRests e
        else s.attemptMade 0 s.flightSeq e) = s.attemptMade 0 s.flightSeq e :=
      if_neg fun h => absurd h.1 (Nat.not_le.mpr hfew)
    rw [State.abandon_few hok hline hfew first, hpart]
    generalize s.attemptMade 0 s.flightSeq e = taken
    generalize s.replayRetires 0 e = retires
    simp [State.countAbandon, State.advanced, State.withTaken, State.writeAll]
  · have hpart : (if 2 ≤ s.line.abandons.toNat ∧ first = .controller ∧ e.notice = .replay then s.replayRests e
        else s.attemptMade 0 s.flightSeq e) = s.thirdPart first s.flightSeq e := by
      rw [State.thirdPart]
      exact if_congr (and_iff_right hmany) rfl rfl
    rw [State.abandon_third hok hin hline hmany first, hpart]
    generalize s.thirdPart first s.flightSeq e = taken
    simp [State.quietFrom, State.countAbandon, State.withTaken, State.writeAll, LineEngine.leave]

/-! ### The receipt field (R137) -/

theorem LineEngine.endReceipts_eq {l : LineEngine} {w : Window} (h : l.window = some w) (size : Nat) :
    l.endReceipts size = { l with
      position := .round (.window l.windowsUsed) (57 + size), tx := []
      window := some { w with role := .receiver, flight := none } } := by
  have hbit : 56 + size + 1 = 57 + size := by omega
  simp [LineEngine.endReceipts, LineEngine.stopSending, LineEngine.pastBit, Window.stopSending, h, hbit]

/-- Settles O52: SENT with the receipts read, at the sender; elsewhere the field ends without an effect on the queue. -/
theorem receiptsSettleTheEntry : Obligations.ReceiptsSettleTheEntry := by
  unfold Obligations.ReceiptsSettleTheEntry
  intro s w slots b hposition hlow hhigh hq
  have hbefore : s.line.position.beforeClosingGap s.image.groupSize = true := by
    rw [hposition]
    exact decide_eq_true ⟨hlow, hhigh⟩
  have hround : s.line.position.inRound = true := by rw [hposition]; rfl
  refine ⟨fun f e hsends hsent _ => ?_, fun hrst hstation hwindow hrole hoff => ?_⟩
  · have hseq := hsends.flightSeq_eq
    have hin := hsends.participates
    have hok := State.sends.queueOk hq
    obtain ⟨hrst, hstation, hwindow, hrole, _, hline⟩ := hsends
    have hfollows : s.follows = true := by
      rcases hstation with h | h <;> simp [State.follows, StationState.observes, h, hround]
    have hawaits : s.line.awaitsReceipts = true := by simp [LineEngine.awaitsReceipts, hwindow, hrole, hsent]
    have hsettled := State.takeOutcome_attempt hok hline (o := .sent (slots &&& slotMask s.image.groupSize)) rfl
    rw [exec_event_off (f := State.finishReceipts slots) rfl hrst, State.finishReceipts,
      if_pos (by rw [hfollows, hbefore, hwindow]; rfl), if_pos (by rw [hawaits, hin]; rfl), hsettled, ← hseq]
    simp only
    rw [LineEngine.endReceipts_eq (w := w) (by exact hwindow)]
    rfl
  · have hfollows : s.follows = true := by
      rcases hstation with h | h | h | h <;> simp [State.follows, StationState.observes, h, hround]
    have hawaits : s.line.awaitsReceipts = false := by simp [LineEngine.awaitsReceipts, hwindow, hrole]
    rw [exec_event_off (f := State.finishReceipts slots) rfl hrst, State.finishReceipts,
      if_pos (by rw [hfollows, hbefore, hwindow]; rfl), if_neg (by rw [hawaits]; exact Bool.false_ne_true), if_pos (by rw [hoff]; rfl),
      LineEngine.endReceipts_eq hwindow]

end Sys2Proof.Machine
end

section
/-! PROOFS. A station that leaves the group on a request or on a stuck line, and the line restored
(R13, R16, R97, R118, R119): O27, O60. -/

namespace Sys2Proof.Machine

/-- The entry on the line as a station takes it that leaves the group: a CANDIDATE as LOST, one SENDING as an attempt (R97). -/
def State.takenOnLeaving (s : State) (seq : Seq) (e : QueueEntry) : List QueueEntry × List FeedBody :=
  if e.state = .candidate then s.lostPart e else s.frozenPart seq e

theorem State.freeze_some {s : State} (hq : QueueOk s.id s.queue) {e : QueueEntry} (he : lineEntry s.queue = some e) :
    s.freeze .lost = s.withTaken (s.takenOnLeaving s.flightSeq e) := by
  rw [State.takenOnLeaving]
  by_cases hstate : e.state = .candidate
  · rw [State.freeze_lost he hstate, if_pos hstate]
  · have hsending : e.state = .sending := (by simpa [QueueEntry.onLine] using (lineEntry_some he).2 :
      e.state = .candidate ∨ e.state = .sending).resolve_left hstate
    rw [State.freeze_abandoned hq he (.inl hsending), if_neg hstate]

theorem State.leaveGroup_some {s : State} (hin : s.station.participates = true) (hq : QueueOk s.id s.queue) {e : QueueEntry}
    (he : lineEntry s.queue = some e) :
    s.leaveGroup .lost = { s.withTaken (s.takenOnLeaving s.flightSeq e) with line := s.line.leave } := by
  rw [State.leaveGroup, if_pos hin, State.freeze_some hq he]
  rfl

/-- The engine of a station whose line is found stuck (R118). -/
def LineEngine.stuck (l : LineEngine) : LineEngine :=
  { l with
    lineState := .stuck, position := .off, roundTimer := none, deferredMark := false, ownMark := false, censusMap := 0
    sweep := none, window := none, tx := [], drivenRun := max 40 l.drivenRun, releasedRun := 0, idleRun := 0 }

/-- The station that a stuck line takes to STUCK (R16). -/
def State.stuckFrom (s : State) : State :=
  { s with
    station := .stuck, cause := .none, silenceTimer := none, line := s.line.stuck
    feed := s.feed.arrive s.image.watermark s.line.round true .lineStuck
    ann := { s.ann with link := false, code := s.ann.own } }

theorem StationState.observes_of_participates {st : StationState} (h : st.participates = true) : st.observes = true := by
  rcases StationState.participates_iff.mp h with rfl | rfl <;> rfl

theorem exec_lineStuck {s : State} (hrst : s.rst = false) (hobserves : s.station.observes = true)
    (hup : s.line.lineState = .up) :
    exec .lineStuck s = .next ((((s.stuckFound.leaveGroup .lost).goneOff).write .lineStuck true).enterStuck) := by
  rw [exec_event_off (f := State.findStuck) rfl hrst]
  obtain ⟨hnot, _⟩ | ⟨_, _, h⟩ := s.findStuck_cases
  · exact absurd ⟨hobserves, hup⟩ hnot
  · rw [h]

theorem State.wentStuck_quiet {s : State} (h : s.station = .quiet) :
    (s.goneOff.write .lineStuck true).enterStuck = s.goneOff.write .lineStuck true :=
  if_pos h

theorem State.wentStuck_of_ne {s : State} (h : s.station ≠ .quiet) :
    (s.goneOff.write .lineStuck true).enterStuck =
      { s.goneOff.write .lineStuck true with
        station := .stuck, cause := .none, silenceTimer := none
        ann := { s.ann with link := false, code := s.ann.own } } :=
  if_neg h

theorem State.takenOnLeaving_stuckFound (s : State) (e : QueueEntry) :
    s.stuckFound.takenOnLeaving s.stuckFound.flightSeq e = s.takenOnLeaving s.flightSeq e := rfl

theorem State.takenOnLeaving_taking (s : State) (e : QueueEntry) :
    (s.taking .quiet []).takenOnLeaving (s.taking .quiet []).flightSeq e = s.takenOnLeaving s.flightSeq e := rfl

/-- A stuck line at a station with an entry on the line: the entry's records stand before LINE_STUCK. -/
theorem exec_lineStuck_some {s : State} (hrst : s.rst = false) (hup : s.line.lineState = .up)
    (hin : s.station.participates = true) (hq : QueueOk s.id s.queue) {e : QueueEntry} (he : lineEntry s.queue = some e) :
    exec .lineStuck s = .next (s.withTaken (s.takenOnLeaving s.flightSeq e)).stuckFrom := by
  have hnot : s.station ≠ .quiet := fun h => by rw [h] at hin; exact Bool.noConfusion hin
  rw [exec_lineStuck hrst (StationState.observes_of_participates hin) hup, State.leaveGroup_some (s := s.stuckFound) hin hq he,
    State.takenOnLeaving_stuckFound]
  generalize s.takenOnLeaving s.flightSeq e = taken
  rw [State.wentStuck_of_ne (by exact hnot)]
  rfl

/-- A QUIET request at a station with an entry on the line: the entry's records stand before STATION_QUIET. -/
theorem exec_quiet_some {s : State} (hopen : s.transactionOpen) (hin : s.station.participates = true)
    (hq : QueueOk s.id s.queue) {e : QueueEntry} (he : lineEntry s.queue = some e) :
    exec .quiet s = .next
      ((((s.taking .quiet []).withTaken (s.takenOnLeaving s.flightSeq e)).quietFrom .host).answered .quiet []
        (padded HostCommand.quiet.responseLength [Status.ok.code])) := by
  have hleft := State.leaveGroup_some (s := s.taking .quiet []) hin hq he
  rw [State.takenOnLeaving_taking] at hleft
  generalize s.takenOnLeaving s.flightSeq e = taken at hleft ⊢
  have hserve : serve .quiet [] (s.taking .quiet []) = (((s.taking .quiet []).withTaken taken).quietFrom .host).done := by
    rw [serve, serveQuiet_leaves (s := s.taking .quiet []), State.enterQuiet_of_leaveGroup hleft]
    · rfl
    all_goals rcases StationState.participates_iff.mp hin with h | h <;> exact fun hs => nomatch h.symm.trans hs
  exact State.request_served (u := ((s.taking .quiet []).withTaken taken).quietFrom .host) (data := []) (status := .ok)
    rfl hopen rfl hserve rfl rfl

/-- Settles O27: whatever brings the leave, the entry on the line is taken first. -/
theorem leavingTheGroupTakesTheEntryOnTheLine : Obligations.LeavingTheGroupTakesTheEntryOnTheLine := by
  unfold Obligations.LeavingTheGroupTakesTheEntryOnTheLine
  intro s e w f command last hstation he hq hwindow hflight hcommand
  have hin : s.station.participates = true := StationState.participates_iff.mpr hstation
  have hok := State.sends.queueOk hq
  have hseq : s.flightSeq = f.payload.extractLsb' 25 8 := by simp [State.flightSeq, hwindow, hflight]
  simp only
  rw [← hseq, show (if e.state = .candidate then s.lostPart e else if e.notice = .replay then s.replayRests e
    else s.attemptMade 0 s.flightSeq e) = s.takenOnLeaving s.flightSeq e from rfl]
  obtain ⟨rfl, rfl, hopen⟩ | ⟨rfl, rfl, hrst, hup⟩ := hcommand
  · have hexec := exec_quiet_some hopen hin hok he
    generalize s.takenOnLeaving s.flightSeq e = taken at hexec ⊢
    refine ⟨_, hexec, ?_⟩
    simp [State.answered, State.quietFrom, State.withTaken, State.writeAll, State.taking, State.gtx, StationState.participates,
      LineEngine.leave, hwindow, Window.stopSending]
  · have hexec := exec_lineStuck_some hrst hup hin hok he
    generalize s.takenOnLeaving s.flightSeq e = taken at hexec ⊢
    refine ⟨_, hexec, ?_⟩
    simp [State.stuckFrom, State.withTaken, State.writeAll, State.gtx, StationState.participates, LineEngine.stuck]

/-- Settles O60: a stuck line takes what was on the line, and restored it brings LISTEN afresh. -/
theorem stuckLineAndItsRecovery : Obligations.StuckLineAndItsRecovery := by
  unfold Obligations.StuckLineAndItsRecovery
  intro s hrst
  refine ⟨fun hup => ⟨fun hquiet => ?_, fun hstation => ?_, fun e hstation he hq => ?_⟩,
    fun hstuck => ⟨fun hquiet => ?_, fun hst => ?_⟩⟩
  · have hout : s.station.participates = false := by rw [hquiet]; rfl
    rw [exec_lineStuck hrst (by rw [hquiet]; rfl) hup, State.leaveGroup_out (s := s.stuckFound) hout,
      State.wentStuck_quiet (by exact hquiet)]
    rfl
  · obtain hlisten | ⟨hin, hnone⟩ := hstation
    · have hout : s.station.participates = false := by rw [hlisten]; rfl
      rw [exec_lineStuck hrst (by rw [hlisten]; rfl) hup, State.leaveGroup_out (s := s.stuckFound) hout,
        State.wentStuck_of_ne (by rw [show s.stuckFound.station = .listen from hlisten]; decide)]
      rfl
    · have hin' : s.station.participates = true := StationState.participates_iff.mpr hin
      rw [exec_lineStuck hrst (StationState.observes_of_participates hin') hup,
        State.leaveGroup_none (s := s.stuckFound) hin' hnone, State.wentStuck_of_ne]
      · rfl
      · intro h
        have hquiet : s.station = .quiet := h
        rw [hquiet] at hin'
        exact Bool.noConfusion hin'
  · have hin : s.station.participates = true := StationState.participates_iff.mpr hstation
    have hok := State.sends.queueOk hq
    refine ⟨_, exec_lineStuck_some hrst hup hin hok he, ?_⟩
    have hfree : lineEntry (s.freeze .lost).queue = none := (State.freeze_queue hok .lost).2
    rw [State.freeze_some hok he] at hfree
    refine ⟨rfl, rfl, rfl, rfl, rfl, rfl, hfree, fun hcandidate => ?_⟩
    rw [State.takenOnLeaving, if_pos hcandidate]
    rfl
  · rw [exec_event_off (f := State.restoreLine) rfl hrst]
    have hnot : s.station ≠ .stuck := fun h => nomatch hquiet.symm.trans h
    exact congrArg Host.Outcome.next ((if_pos ⟨hstuck, .inr hquiet⟩).trans (if_neg hnot))
  · rw [exec_event_off (f := State.restoreLine) rfl hrst]
    exact congrArg Host.Outcome.next ((if_pos ⟨hstuck, .inl hst⟩).trans (if_pos hst))

end Sys2Proof.Machine
end

section
/-! PROOFS. What JOINING does to the queue: the REPLAY staged, the CHANNEL entries started over, the own conditions announced again
(R75, R76, R158): O42. -/

namespace Sys2Proof.Machine

theorem slotEntry_map {f : QueueEntry → QueueEntry} (hf : ∀ e, (f e).slot = e.slot) (k : Fin 15) (q : List QueueEntry) :
    slotEntry k (q.map f) = (slotEntry k q).map f := by
  rw [slotEntry, slotEntry, List.find?_map]
  exact congrArg (Option.map f) (congrArg (q.find? ·) (funext fun e => by simp [hf e]))

theorem updateSlot_slots {f : QueueEntry → QueueEntry} (hf : ∀ e, (f e).slot = e.slot) (k : Fin 15) (q : List QueueEntry) :
    (updateSlot k f q).map (·.slot) = q.map (·.slot) := by
  rw [updateSlot, List.map_map]
  refine List.map_congr_left fun e _ => ?_
  by_cases h : e.slot = k <;> simp [h, hf]

/-! ### The REPLAY entry -/

/-- The REPLAY entry as the staging leaves it: without receipts or attempts, WAITING (R76). -/
def QueueEntry.replayStaged : QueueEntry := QueueEntry.fresh replaySlot .replay

theorem slotEntry_fresh (k l : Fin 15) (n : Notice) :
    slotEntry k [QueueEntry.fresh l n] = if l = k then some (QueueEntry.fresh l n) else none := by
  by_cases h : l = k <;> simp [slotEntry, QueueEntry.fresh, h]

theorem QueueEntry.startOver_replay {id : StationId} {e : QueueEntry} (hok : e.Ok id) (hs : e.slot = replaySlot) :
    e.startOver = QueueEntry.replayStaged := by
  have hn := QueueEntry.notice_of_replaySlot hok.1 hs
  obtain ⟨hrestage, hwithdraw⟩ := hok.replay_unflagged hn
  obtain ⟨slot, notice, state, restage, withdraw, attempts, receipts⟩ := e
  subst hs hn hrestage hwithdraw
  rfl

theorem slotEntry_stageReplay_same {id : StationId} {q : List QueueEntry} (hq : QueueOk id q) :
    slotEntry replaySlot (stageReplay q) = some QueueEntry.replayStaged := by
  unfold stageReplay
  cases h : slotEntry replaySlot q with
  | none =>
    rw [slotEntry_append, h, slotEntry_fresh, if_pos rfl]
    rfl
  | some e =>
    obtain ⟨hmem, hs⟩ := slotEntry_some h
    simp only
    rw [slotEntry_updateSlot (f := QueueEntry.startOver) (fun _ => rfl), h]
    exact congrArg some (QueueEntry.startOver_replay (hq.each e hmem) hs)

theorem slotEntry_updateSlot_ne {k l : Fin 15} (hkl : k ≠ l) {f : QueueEntry → QueueEntry} (hf : ∀ e, (f e).slot = e.slot)
    (q : List QueueEntry) : slotEntry k (updateSlot l f q) = slotEntry k q := by
  have hslot (e : QueueEntry) : (if e.slot = l then f e else e).slot = e.slot := by split <;> simp [hf]
  rw [updateSlot, slotEntry_map hslot]
  cases h : slotEntry k q with
  | none => rfl
  | some e =>
    rw [Option.map_some, if_neg]
    rw [(slotEntry_some h).2]
    exact hkl

theorem slotEntry_stageReplay_ne {k : Fin 15} (hk : k ≠ replaySlot) (q : List QueueEntry) :
    slotEntry k (stageReplay q) = slotEntry k q := by
  unfold stageReplay
  cases h : slotEntry replaySlot q with
  | none =>
    simp only
    rw [slotEntry_append, slotEntry_fresh, if_neg (Ne.symm hk), Option.or_none]
  | some e => exact slotEntry_updateSlot_ne (f := QueueEntry.startOver) hk (fun _ => rfl) q

theorem stageReplay_slots (q : List QueueEntry) :
    (stageReplay q).map (·.slot) = q.map (·.slot) ++ (if slotEntry replaySlot q = none then [replaySlot] else []) := by
  unfold stageReplay
  cases h : slotEntry replaySlot q with
  | none => simp [QueueEntry.fresh]
  | some e =>
    simp only [reduceCtorEq, if_false, List.append_nil]
    exact updateSlot_slots (f := QueueEntry.startOver) (fun _ => rfl) _ _

/-! ### The entries started over, and those that are added -/

theorem QueueEntry.resetForReplay_slot (e : QueueEntry) : e.resetForReplay.slot = e.slot := by
  unfold QueueEntry.resetForReplay
  cases e.notice <;> rfl

theorem slotEntry_reannounced {k : Fin 15} (cs : List Channel) (hk : ∀ c ∈ cs, channelSlot c ≠ k) :
    slotEntry k (cs.map reannounced) = none := by
  refine slotEntry_none.mpr fun e he => ?_
  obtain ⟨c, hc, rfl⟩ := List.mem_map.mp he
  exact hk c hc

theorem slotEntry_reannounced_mem {c : Channel} {cs : List Channel} (h : c ∈ cs) :
    slotEntry (channelSlot c) (cs.map reannounced) = some (reannounced c) := by
  obtain hnone | ⟨e, he⟩ := (slotEntry (channelSlot c) (cs.map reannounced)).eq_none_or_eq_some
  · exact absurd rfl (slotEntry_none.mp hnone (reannounced c) (List.mem_map_of_mem h))
  · obtain ⟨hmem, hs⟩ := slotEntry_some he
    obtain ⟨d, _, rfl⟩ := List.mem_map.mp hmem
    rw [he, channelSlot_inj.mp hs]

/-- The queue of a station that enters JOINING (R75, R76). -/
def joined (id : StationId) (t : Table) (q : List QueueEntry) : List QueueEntry :=
  reannounceAll id t ((stageReplay q).map QueueEntry.resetForReplay)

section
variable (id : StationId) (t : Table) (q : List QueueEntry)

theorem slotEntry_restarted_channel (c : Channel) :
    slotEntry (channelSlot c) ((stageReplay q).map QueueEntry.resetForReplay) =
      (slotEntry (channelSlot c) q).map QueueEntry.resetForReplay := by
  rw [slotEntry_map QueueEntry.resetForReplay_slot, slotEntry_stageReplay_ne (channelSlot_ne_replaySlot c)]

theorem joined_eq :
    joined id t q = (stageReplay q).map QueueEntry.resetForReplay ++ (unannounced id t q channelOrder).map reannounced := by
  have hsame : unannounced id t ((stageReplay q).map QueueEntry.resetForReplay) channelOrder = unannounced id t q channelOrder :=
    List.filter_congr fun c _ => by rw [slotEntry_restarted_channel, Option.isNone_map]
  rw [joined, reannounceAll_eq, hsame]

theorem joined_slots :
    (joined id t q).map (·.slot) = q.map (·.slot) ++ (if slotEntry replaySlot q = none then [replaySlot] else []) ++
      (unannounced id t q channelOrder).map channelSlot := by
  have hslots : (fun e : QueueEntry => e.slot) ∘ QueueEntry.resetForReplay = (·.slot) := funext QueueEntry.resetForReplay_slot
  rw [joined_eq, List.map_append, List.map_map, List.map_map, hslots, stageReplay_slots]
  rfl

theorem slotEntry_joined_channel (c : Channel) :
    slotEntry (channelSlot c) (joined id t q) =
      ((slotEntry (channelSlot c) q).map QueueEntry.resetForReplay).or
        (if (t.find id c).isSome then some (reannounced c) else none) := by
  rw [joined_eq, slotEntry_append, slotEntry_restarted_channel]
  cases hslot : slotEntry (channelSlot c) q with
  | some e => rfl
  | none =>
    have hmem : c ∈ unannounced id t q channelOrder ↔ (t.find id c).isSome = true := by
      simp [unannounced, hslot, mem_channelOrder]
    rw [Option.map_none, Option.none_or, Option.none_or]
    by_cases hfind : (t.find id c).isSome = true
    · rw [if_pos hfind, slotEntry_reannounced_mem (hmem.mpr hfind)]
    · rw [if_neg hfind]
      exact slotEntry_reannounced _ fun d hd heq => hfind (hmem.mp (channelSlot_inj.mp heq ▸ hd))

variable {id q}

theorem slotEntry_joined_replay (hq : QueueOk id q) : slotEntry replaySlot (joined id t q) = some QueueEntry.replayStaged := by
  rw [joined_eq, slotEntry_append, slotEntry_map QueueEntry.resetForReplay_slot, slotEntry_stageReplay_same hq]
  rfl

theorem slotEntry_joined_ack (hq : QueueOk id q) {k : Fin 15} (hk : k ∈ ackSlots) :
    slotEntry k (joined id t q) = slotEntry k q := by
  have hreplay : k ≠ replaySlot := fun h => replaySlot_not_ack (h ▸ hk)
  have hnone : slotEntry k ((unannounced id t q channelOrder).map reannounced) = none :=
    slotEntry_reannounced _ fun c _ heq => channelSlot_not_ack c (heq ▸ hk)
  rw [joined_eq, slotEntry_append, hnone, Option.or_none, slotEntry_map QueueEntry.resetForReplay_slot,
    slotEntry_stageReplay_ne hreplay]
  cases h : slotEntry k q with
  | none => rfl
  | some e =>
    obtain ⟨hmem, rfl⟩ := slotEntry_some h
    have hsound := (hq.each e hmem).1
    have hsame : e.resetForReplay = e := by
      unfold QueueEntry.resetForReplay
      cases hn : e.notice with
      | channel c b =>
        rw [QueueEntry.slotSound, hn] at hsound
        exact absurd (of_decide_eq_true hsound ▸ hk) (channelSlot_not_ack c)
      | ack | replay => rfl
    rw [Option.map_some, hsame]

end

theorem State.enterJoining_eq (s : State) :
    s.enterJoining = { s with station := .joining, silenceTimer := none, queue := joined s.id s.table s.queue } := rfl

/-- Settles O42: the lone start enters JOINING, and its queue is read slot by slot. -/
theorem loneStartEntersJoining : Obligations.LoneStartEntersJoining := by
  unfold Obligations.LoneStartEntersJoining
  intro s hrst hlisten hsilence hposition hqueue
  have hok : QueueOk s.id s.queue := State.sends.queueOk hqueue
  have hidle : s.line.position.lineIdle = true := s.line.position.lineIdle_iff.mpr hposition
  have hexec : exec .silenceTimerExpiry s = .next { s with
      station := .joining, silenceTimer := none, queue := joined s.id s.table s.queue
      line := { s.line with tx := List.replicate 10 true, ownMark := true, roundTimer := some s.image.period } } := by
    rw [exec_event_off (f := State.loneStart) rfl hrst, State.loneStart,
      if_pos ⟨hlisten, Option.isSome_iff_ne_none.mpr hsilence, hidle⟩]
    rfl
  refine ⟨_, hexec, rfl, joined_slots _ _ _, slotEntry_joined_replay _ hok, fun k hk => slotEntry_joined_ack _ hok hk, fun c =>
    ⟨fun e he => ?_, fun hnone hfind => ?_, fun hnone hfind => ?_⟩⟩
  · obtain ⟨hmem, hs⟩ := slotEntry_some he
    obtain ⟨b, hn⟩ := QueueEntry.notice_of_channelSlot (hok.each e hmem).1 hs
    rw [slotEntry_joined_channel, he, Option.map_some, Option.some_or, QueueEntry.resetForReplay.eq_def, hn]
  · rw [slotEntry_joined_channel, hnone, if_pos (Option.isSome_iff_ne_none.mpr hfind)]
    rfl
  · rw [slotEntry_joined_channel, hnone, hfind]
    rfl

end Sys2Proof.Machine
end

section
/-! PROOFS. The roster's part of a complete census, slot by slot and as a whole (R148 to R153, R157): O44, O45. -/

namespace Sys2Proof.Machine

/-! ### What one slot read brings -/

/-- The record of an id after its slot is read (R149, R150). -/
def State.peerAfter (s : State) (map : IdSet) (k : StationId) : Peer :=
  if hasId map k then { presence := .present, missed := 0, lastSeen := s.line.round }
  else
    { presence := if s.leaves map k then .absent else (s.peer k).presence
      missed := if (s.peer k).missed < s.image.absenceLimit then (s.peer k).missed + 1 else s.image.absenceLimit
      lastSeen := (s.peer k).lastSeen }

/-- The orphaned field that a slot read gives to the entries of its id: a join clears it, a leave sets it (R151, R152). -/
def State.news (s : State) (map : IdSet) (k : StationId) : Option Bool :=
  if k = s.id then none
  else if s.joins map k then some false
  else if s.leaves map k then some true
  else none

/-- The record that a slot read writes (R151, R152). -/
def State.newsRecord (s : State) (map : IdSet) (k : StationId) : Option FeedBody :=
  if k = s.id then none
  else if s.joins map k then
    some (.peerJoined k (s.table.entries.filter (fun e => decide (e.origin = k) && e.orphaned)).length)
  else if s.leaves map k then some (.peerLeft k (s.table.entries.filter (fun e => decide (e.origin = k))).length)
  else none

/-- An entry that is un-orphaned or orphaned by a census counts one for the generation (R44, R65). -/
def State.touches (s : State) (map : IdSet) (e : Entry) : Bool :=
  decide (e.origin ≠ s.id) && ((s.joins map e.origin && e.orphaned) || s.leaves map e.origin)

theorem State.joins_iff {s : State} {map : IdSet} {k : StationId} (hk : k.val < s.image.groupSize) :
    s.joins map k = true ↔ hasId map k = true ∧ (s.peer k).presence = .absent := by
  simp [State.joins, hk]

theorem State.leaves_iff {s : State} {map : IdSet} {k : StationId} (hk : k.val < s.image.groupSize) :
    s.leaves map k = true ↔
      hasId map k = false ∧ (s.peer k).presence = .present ∧ s.image.absenceLimit ≤ (s.peer k).missed + 1 := by
  simp [State.leaves, hk, and_assoc]

theorem missedAfter_eq_limit {limit missed : Nat} : missedAfter limit missed = limit ↔ limit ≤ missed + 1 := by
  unfold missedAfter
  split <;> omega

/-- A slot read changes the record of its id, and hands on a join or a leave. -/
theorem State.takeSlot_cases {s : State} {map : IdSet} {k : StationId} (hk : k.val < s.image.groupSize) :
    (k ≠ s.id ∧ s.joins map k = true ∧ s.leaves map k = false ∧
        s.takeSlot map k = (s.setPeer k (s.peerAfter map k)).join k) ∨
      (k ≠ s.id ∧ s.joins map k = false ∧ s.leaves map k = true ∧
        s.takeSlot map k = (s.setPeer k (s.peerAfter map k)).peerLeaves k) ∨
      ((k = s.id ∨ s.joins map k = false ∧ s.leaves map k = false) ∧
        s.takeSlot map k = s.setPeer k (s.peerAfter map k)) := by
  have hjoins := State.joins_iff (map := map) hk
  have hleaves := State.leaves_iff (map := map) hk
  unfold State.takeSlot State.peerAfter
  cases hid : hasId map k with
  | true =>
    have hstay : s.leaves map k = false := by simpa [hid] using hleaves
    simp only [if_true, State.slotDriven]
    by_cases hjoin : (s.peer k).presence = .absent ∧ k ≠ s.id
    · exact .inl ⟨hjoin.2, hjoins.mpr ⟨hid, hjoin.1⟩, hstay, if_pos hjoin⟩
    · refine .inr (.inr ⟨?_, if_neg hjoin⟩)
      by_cases hown : k = s.id
      · exact .inl hown
      · refine .inr ⟨?_, hstay⟩
        rw [← Bool.not_eq_true, hjoins]
        exact fun h => hjoin ⟨h.2, hown⟩
  | false =>
    have hstay : s.joins map k = false := by simpa [hid] using hjoins
    simp only [Bool.false_eq_true, if_false, State.slotReleased, missedAfter_eq_limit]
    by_cases hleave : (s.peer k).presence = .present ∧ s.image.absenceLimit ≤ (s.peer k).missed + 1
    · have hgone := hleaves.mpr ⟨hid, hleave⟩
      rw [if_pos hleave, if_pos hgone]
      by_cases hown : k = s.id
      · exact .inr (.inr ⟨.inl hown, if_neg (not_not_intro hown)⟩)
      · exact .inr (.inl ⟨hown, hstay, hgone, if_pos hown⟩)
    · have hgone : s.leaves map k = false := by
        rw [← Bool.not_eq_true, hleaves]
        exact fun h => hleave h.2
      rw [if_neg hleave, hgone]
      exact .inr (.inr ⟨.inr ⟨hstay, rfl⟩, rfl⟩)

/-! ### The parts of the station after some slots -/

/-- An entry after the slots of some ids. -/
def State.remark (s : State) (map : IdSet) (ks : List StationId) (e : Entry) : Entry :=
  { e with orphaned := ((if e.origin ∈ ks then s.news map e.origin else none).getD e.orphaned) }

/-- The table after the slots of some ids. -/
def State.tableAfter (s : State) (map : IdSet) (ks : List StationId) : Table :=
  { s.table with
    entries := s.table.entries.map (s.remark map ks)
    generation := s.table.generation +
      BitVec.ofNat 16 (s.table.entries.countP (fun e => decide (e.origin ∈ ks) && s.touches map e)) }

/-- The ids that join among some. -/
def State.joiners (s : State) (map : IdSet) (ks : List StationId) : IdSet :=
  ks.foldr (fun k ids => (if s.news map k = some false then idBit k else 0) ||| ids) 0

/-- The queue without the receipts of some ids (R95, R96). -/
def withoutReceipts (ids : IdSet) (q : List QueueEntry) : List QueueEntry :=
  q.map (fun e => { e with receipts := idMinus e.receipts ids })

/-- The station after the slots of some ids. -/
def State.afterSlots (s : State) (map : IdSet) (ks : List StationId) : State :=
  { s with
    roster := ks.foldl (fun (r : Vector Peer 32) (k : StationId) => r.set k (s.peerAfter map k) k.isLt) s.roster
    table := s.tableAfter map ks
    queue := withoutReceipts (s.joiners map ks) s.queue
    feed := s.feed.recordAll s.image.watermark s.line.round (ks.filterMap (s.newsRecord map)) }

theorem withoutReceipts_zero (q : List QueueEntry) : withoutReceipts 0 q = q := by
  have hsame (e : QueueEntry) : { e with receipts := idMinus e.receipts 0 } = e := by
    rw [show idMinus e.receipts 0 = e.receipts from BitVec.and_allOnes]
  rw [withoutReceipts, List.map_congr_left fun e _ => hsame e, List.map_id']

theorem withoutReceipts_or (a b : IdSet) (q : List QueueEntry) :
    withoutReceipts b (withoutReceipts a q) = withoutReceipts (a ||| b) q := by
  simp [withoutReceipts, idMinus, BitVec.not_or, BitVec.and_assoc]

theorem countP_false_of_forall {α : Type} {p : α → Bool} {l : List α} (h : ∀ a ∈ l, p a = false) : l.countP p = 0 :=
  List.countP_eq_zero.mpr fun a ha => by rw [h a ha]; exact Bool.false_ne_true

theorem State.afterSlots_nil (s : State) (map : IdSet) : s.afterSlots map [] = s := by
  have hremark : s.table.entries.map (s.remark map []) = s.table.entries :=
    (List.map_congr_left fun e _ => by simp [State.remark]).trans (List.map_id' _)
  have htable : s.tableAfter map [] = s.table := by simp [State.tableAfter, hremark]
  rw [State.afterSlots, htable, State.joiners, List.foldr_nil, withoutReceipts_zero]
  rfl

theorem State.remark_one (s : State) (map : IdSet) (k : StationId) (e : Entry) :
    s.remark map [k] e = if e.origin = k then { e with orphaned := (s.news map k).getD e.orphaned } else e := by
  by_cases h : e.origin = k
  · rw [State.remark, if_pos h, if_pos (List.mem_singleton.mpr h), h]
  · rw [State.remark, if_neg h, if_neg (mt List.mem_singleton.mp h)]
    rfl

theorem State.joiners_one (s : State) (map : IdSet) (k : StationId) :
    s.joiners map [k] = if s.news map k = some false then idBit k else 0 := by
  simp [State.joiners]

/-- One slot changes what `afterSlots` says of it. -/
theorem State.takeSlot_eq {s : State} {map : IdSet} {k : StationId} (hk : k.val < s.image.groupSize) :
    s.takeSlot map k = s.afterSlots map [k] := by
  have hcount {p : Entry → Bool} (hp : ∀ e, e.origin = k → s.touches map e = p e) :
      s.table.entries.countP (fun e => decide (e.origin ∈ [k]) && s.touches map e) =
        s.table.entries.countP (fun e => decide (e.origin = k) && p e) := by
    refine List.countP_congr fun e _ => ?_
    by_cases h : e.origin = k
    · simp [h, hp e h]
    · simp [h]
  have hmap {b : Option Bool} (hnews : s.news map k = b) :
      s.table.entries.map (s.remark map [k]) =
        s.table.entries.map (fun e => if e.origin = k then { e with orphaned := b.getD e.orphaned } else e) :=
    List.map_congr_left fun e _ => by rw [s.remark_one, hnews]
  obtain ⟨hown, hj, hl, h⟩ | ⟨hown, hj, hl, h⟩ | ⟨hstay, h⟩ := State.takeSlot_cases (map := map) hk <;> rw [h]
  · have hnews : s.news map k = some false := by simp [State.news, hown, hj]
    have hn : ((s.table.ofOrigin k).filter (·.orphaned)).length =
        s.table.entries.countP (fun e => decide (e.origin = k) && e.orphaned) := by
      rw [Table.ofOrigin, List.filter_filter, List.countP_eq_length_filter]
      exact congrArg List.length (List.filter_congr fun e _ => Bool.and_comm _ _)
    have hrecord : s.newsRecord map k = some (.peerJoined k ((s.table.ofOrigin k).filter (·.orphaned)).length) := by
      simp [State.newsRecord, hown, hj, hn, List.countP_eq_length_filter]
    have htable : s.tableAfter map [k] = (s.markOrphans k false ((s.table.ofOrigin k).filter (·.orphaned)).length).table := by
      rw [State.tableAfter, hmap hnews, hcount (p := fun e => e.orphaned) (fun e he => by simp [State.touches, he, hown, hj, hl]),
        hn]
      rfl
    rw [State.afterSlots, htable, s.joiners_one, if_pos hnews, List.filterMap_cons, hrecord]
    rfl
  · have hnews : s.news map k = some true := by simp [State.news, hown, hj, hl]
    have hn : (s.table.ofOrigin k).length = s.table.entries.countP (fun e => decide (e.origin = k) && true) := by
      simp only [Table.ofOrigin, Bool.and_true, List.countP_eq_length_filter]
    have hrecord : s.newsRecord map k = some (.peerLeft k (s.table.ofOrigin k).length) := by
      simp [State.newsRecord, hown, hj, hl, Table.ofOrigin]
    have htable : s.tableAfter map [k] = (s.markOrphans k true (s.table.ofOrigin k).length).table := by
      rw [State.tableAfter, hmap hnews, hcount (p := fun _ => true) (fun e he => by simp [State.touches, he, hown, hl]), hn]
      rfl
    rw [State.afterSlots, htable, s.joiners_one, if_neg (by rw [hnews]; decide), withoutReceipts_zero, List.filterMap_cons, hrecord]
    rfl
  · have hnone : s.news map k = none ∧ s.newsRecord map k = none := by
      rcases hstay with h | ⟨hj, hl⟩
      · exact ⟨if_pos h, if_pos h⟩
      · simp [State.news, State.newsRecord, hj, hl]
    have hsame : s.table.entries.map (s.remark map [k]) = s.table.entries := by
      rw [hmap hnone.1]
      exact (List.map_congr_left fun e _ => ite_self _).trans (List.map_id' _)
    have hquiet (e : Entry) (he : e.origin = k) : s.touches map e = false := by
      rcases hstay with h | ⟨hj, hl⟩
      · simp [State.touches, he, h]
      · simp [State.touches, he, hj, hl]
    have htable : s.tableAfter map [k] = s.table := by
      rw [State.tableAfter, hsame, hcount (p := fun _ => false) hquiet]
      simp
    rw [State.afterSlots, htable, s.joiners_one, if_neg (by rw [hnone.1]; decide), withoutReceipts_zero, List.filterMap_cons,
      hnone.2]
    rfl

/-! ### The slots one after another -/

section
variable {s : State} {map : IdSet} {k : StationId}

theorem State.afterSlots_peer {j : StationId} (hj : j ≠ k) : (s.afterSlots map [k]).peer j = s.peer j :=
  ((s.peer_setPeer k j (s.peerAfter map k))).trans (if_neg (Ne.symm hj))

/-- A slot read leaves to the other ids what their slots will bring. -/
theorem State.afterSlots_brings {j : StationId} (hj : j ≠ k) :
    (s.afterSlots map [k]).peerAfter map j = s.peerAfter map j ∧ (s.afterSlots map [k]).news map j = s.news map j ∧
      (s.afterSlots map [k]).joins map j = s.joins map j ∧ (s.afterSlots map [k]).leaves map j = s.leaves map j := by
  have hpeer := State.afterSlots_peer (s := s) (map := map) hj
  have hjoins : (s.afterSlots map [k]).joins map j = s.joins map j := by rw [State.joins, hpeer]; rfl
  have hleaves : (s.afterSlots map [k]).leaves map j = s.leaves map j := by rw [State.leaves, hpeer]; rfl
  refine ⟨?_, ?_, hjoins, hleaves⟩
  · rw [State.peerAfter, hpeer, hleaves]
    rfl
  · rw [State.news, hjoins, hleaves]
    rfl

theorem State.remark_of_ne {e : Entry} (he : e.origin ≠ k) : s.remark map [k] e = e := by rw [s.remark_one, if_neg he]

theorem State.afterSlots_touches {e : Entry} (he : e.origin ≠ k) :
    (s.afterSlots map [k]).touches map (s.remark map [k] e) = s.touches map e := by
  obtain ⟨_, _, hjoins, hleaves⟩ := State.afterSlots_brings (s := s) (map := map) he
  rw [State.remark_of_ne he, State.touches, hjoins, hleaves]
  rfl

theorem State.afterSlots_newsRecord {j : StationId} (hj : j ≠ k) :
    (s.afterSlots map [k]).newsRecord map j = s.newsRecord map j := by
  obtain ⟨_, _, hjoins, hleaves⟩ := State.afterSlots_brings (s := s) (map := map) hj
  have hcount (p q : Entry → Bool) (hpq : ∀ e, p (s.remark map [k] e) = q e) :
      ((s.afterSlots map [k]).table.entries.filter p).length = (s.table.entries.filter q).length := by
    rw [State.afterSlots, State.tableAfter, List.filter_map, List.length_map]
    exact congrArg List.length (List.filter_congr fun e _ => hpq e)
  rw [State.newsRecord, hjoins, hleaves, hcount (fun e => decide (e.origin = j) && e.orphaned)
    (fun e => decide (e.origin = j) && e.orphaned), hcount (fun e => decide (e.origin = j)) (fun e => decide (e.origin = j))]
  · rfl
  · exact fun _ => rfl
  · intro e
    by_cases he : e.origin = k
    · have hne : e.origin ≠ j := fun h => hj (h.symm.trans he)
      simp [State.remark, hne]
    · rw [State.remark_of_ne he]

end

theorem countP_mem_cons {α β : Type} [DecidableEq β] (f : α → β) (p : α → Bool) {b : β} {bs : List β} (h : b ∉ bs)
    (l : List α) :
    l.countP (fun a => decide (f a ∈ b :: bs) && p a) =
      l.countP (fun a => decide (f a ∈ [b]) && p a) + l.countP (fun a => decide (f a ∈ bs) && p a) := by
  induction l with
  | nil => rfl
  | cons a l ih =>
    rw [List.countP_cons, List.countP_cons, List.countP_cons, ih]
    by_cases hb : f a = b
    · simp [hb, h]
      omega
    · simp [hb]
      omega

theorem State.afterSlots_cons {s : State} {map : IdSet} {k : StationId} {ks : List StationId} (hk : k ∉ ks) :
    (s.afterSlots map [k]).afterSlots map ks = s.afterSlots map (k :: ks) := by
  have hne {j : StationId} (hj : j ∈ ks) : j ≠ k := fun h => hk (h ▸ hj)
  have hroster : ks.foldl (fun (r : Vector Peer 32) (j : StationId) => r.set j ((s.afterSlots map [k]).peerAfter map j) j.isLt)
      (s.afterSlots map [k]).roster =
      (k :: ks).foldl (fun (r : Vector Peer 32) (j : StationId) => r.set j (s.peerAfter map j) j.isLt) s.roster :=
    List.foldl_ext _ _ _ fun r j hj => by rw [(State.afterSlots_brings (hne hj)).1]
  have hentries : (s.afterSlots map [k]).table.entries.map ((s.afterSlots map [k]).remark map ks) =
      s.table.entries.map (s.remark map (k :: ks)) := by
    rw [State.afterSlots, State.tableAfter, List.map_map]
    refine List.map_congr_left fun e _ => ?_
    by_cases he : e.origin = k
    · simp [State.remark, he, hk]
    · by_cases hin : e.origin ∈ ks
      · rw [Function.comp_apply, State.remark_of_ne he, State.remark, State.remark, if_pos hin,
          if_pos (List.mem_cons_of_mem _ hin)]
        exact congrArg (fun b : Option Bool => { e with orphaned := b.getD e.orphaned }) (State.afterSlots_brings he).2.1
      · simp [State.remark, he, hin]
  have hcount : (s.afterSlots map [k]).table.entries.countP
        (fun e => decide (e.origin ∈ ks) && (s.afterSlots map [k]).touches map e) =
      s.table.entries.countP (fun e => decide (e.origin ∈ ks) && s.touches map e) := by
    rw [show (s.afterSlots map [k]).table.entries = s.table.entries.map (s.remark map [k]) from rfl, List.countP_map]
    refine List.countP_congr fun e _ => ?_
    by_cases hin : e.origin ∈ ks
    · rw [Function.comp_apply, State.afterSlots_touches (hne hin)]
      rfl
    · simp [State.remark, hin]
  have htable : (s.afterSlots map [k]).tableAfter map ks = s.tableAfter map (k :: ks) := by
    rw [State.tableAfter, State.tableAfter, hentries, hcount, countP_mem_cons (·.origin) (s.touches map) hk, BitVec.ofNat_add,
      ← BitVec.add_assoc]
    rfl
  have hqueue : withoutReceipts ((s.afterSlots map [k]).joiners map ks) (s.afterSlots map [k]).queue =
      withoutReceipts (s.joiners map (k :: ks)) s.queue := by
    have hjoiners : (s.afterSlots map [k]).joiners map ks = s.joiners map ks :=
      List.foldr_ext _ _ _ fun j hj ids => by rw [(State.afterSlots_brings (hne hj)).2.1]
    rw [State.afterSlots, withoutReceipts_or, ← State.afterSlots, hjoiners, s.joiners_one]
    rfl
  have hrecords : ks.filterMap ((s.afterSlots map [k]).newsRecord map) = ks.filterMap (s.newsRecord map) :=
    List.filterMap_congr fun j hj => State.afterSlots_newsRecord (hne hj)
  have hfeed : (s.afterSlots map [k]).feed.recordAll s.image.watermark s.line.round (ks.filterMap (s.newsRecord map)) =
      s.feed.recordAll s.image.watermark s.line.round ((k :: ks).filterMap (s.newsRecord map)) := by
    rw [State.afterSlots, ← Feed.recordAll_append, ← List.filterMap_append]
    rfl
  rw [State.afterSlots, hroster, htable, hqueue, hrecords]
  exact congrArg (fun f => { s with
    roster := (k :: ks).foldl (fun (r : Vector Peer 32) (j : StationId) => r.set j (s.peerAfter map j) j.isLt) s.roster
    table := s.tableAfter map (k :: ks), queue := withoutReceipts (s.joiners map (k :: ks)) s.queue, feed := f }) hfeed

theorem State.takeSlots_eq {s : State} {map : IdSet} {ks : List StationId} (hks : ks.Nodup)
    (hsmall : ∀ k ∈ ks, k.val < s.image.groupSize) : ks.foldl (State.takeSlot map) s = s.afterSlots map ks := by
  induction ks generalizing s with
  | nil => exact (s.afterSlots_nil map).symm
  | cons k ks ih =>
    obtain ⟨hk, hks⟩ := List.nodup_cons.mp hks
    rw [List.foldl_cons, State.takeSlot_eq (hsmall k List.mem_cons_self),
      ih (s := s.afterSlots map [k]) hks fun j hj => hsmall j (List.mem_cons_of_mem k hj), State.afterSlots_cons hk]

/-! ### The whole census -/

/-- The ids with a slot, in the order of their slots (R148). -/
def State.censusIds (s : State) : List StationId := stationIds.filter (fun k => decide (k.val < s.image.groupSize))

theorem stationIds_nodup : stationIds.Nodup := by decide

theorem mem_stationIds (k : StationId) : k ∈ stationIds := by decide +revert

theorem State.mem_censusIds {s : State} {k : StationId} : k ∈ s.censusIds ↔ k.val < s.image.groupSize := by
  simp [State.censusIds, mem_stationIds]

theorem State.takeCensus_eq (s : State) (map : IdSet) : s.takeCensus map = s.afterSlots map s.censusIds :=
  State.takeSlots_eq (stationIds_nodup.filter _) fun _ hk => State.mem_censusIds.mp hk

theorem hasId_slotMask (size : Nat) (k : StationId) : hasId (slotMask size) k = decide (k.val < size) := by
  rw [hasId, slotMask, BitVec.getLsbD_ofNat, Nat.testBit_two_pow_sub_one, decide_eq_true k.isLt, Bool.true_and]

theorem hasId_census (slots : IdSet) (size : Nat) (k : StationId) :
    hasId (slots &&& slotMask size) k = (decide (k.val < size) && hasId slots k) := by
  rw [hasId_and, hasId_slotMask, Bool.and_comm]

section
variable (s : State) (slots : IdSet)

/-- The census map that a census leaves (R109). -/
def State.mapRead : IdSet := slots &&& slotMask s.image.groupSize

theorem State.joins_mapRead (k : StationId) : s.joins (s.mapRead slots) k = s.joins slots k := by
  rw [State.joins, State.joins, State.mapRead, hasId_census]
  cases decide (k.val < s.image.groupSize) <;> rfl

theorem State.leaves_mapRead (k : StationId) : s.leaves (s.mapRead slots) k = s.leaves slots k := by
  rw [State.leaves, State.leaves, State.mapRead, hasId_census]
  cases decide (k.val < s.image.groupSize) <;> rfl

theorem State.joins_beyond {k : StationId} (h : ¬k.val < s.image.groupSize) : s.joins slots k = false := by
  simp [State.joins, h]

theorem State.leaves_beyond {k : StationId} (h : ¬k.val < s.image.groupSize) : s.leaves slots k = false := by
  simp [State.leaves, h]

/-- The records of a census are those of its slots. -/
theorem State.filterMap_newsRecord :
    s.censusIds.filterMap (s.newsRecord (s.mapRead slots)) = s.censusRecords slots := by
  rw [State.censusIds, State.censusRecords, List.filterMap_filter, List.filterMap_filter]
  refine List.filterMap_congr fun k _ => ?_
  simp only [State.newsRecord, State.joins_mapRead, State.leaves_mapRead, decide_eq_true_eq]
  by_cases hsmall : k.val < s.image.groupSize
  · rw [if_pos hsmall]
    by_cases hown : k = s.id
    · rw [if_pos hown, if_neg (not_not_intro hown)]
    · rw [if_neg hown, if_pos hown]
  · simp [s.joins_beyond slots hsmall, s.leaves_beyond slots hsmall, hsmall]

theorem foldl_set_peer (f : StationId → Peer) (ks : List StationId) (r : Vector Peer 32) (k : StationId) :
    (ks.foldl (fun (r : Vector Peer 32) (j : StationId) => r.set j (f j) j.isLt) r)[k] = if k ∈ ks then f k else r[k] := by
  induction ks generalizing r with
  | nil => rfl
  | cons j ks ih =>
    rw [List.foldl_cons, ih]
    by_cases hin : k ∈ ks
    · rw [if_pos hin, if_pos (List.mem_cons_of_mem j hin)]
    · rw [if_neg hin, Fin.getElem_fin, Vector.getElem_set]
      by_cases hj : j = k
      · rw [if_pos (by rw [hj]), if_pos (by rw [hj]; exact List.mem_cons_self), hj]
      · rw [if_neg fun h => hj (Fin.ext h), if_neg (by simp [Ne.symm hj, hin])]
        rfl

/-- The station past the hand-off of a census to the roster. -/
def State.censusTaken : State := s.afterSlots (s.mapRead slots) s.censusIds

theorem State.censusTaken_peer (k : StationId) :
    (s.censusTaken slots).peer k =
      if s.image.groupSize ≤ k.val then s.peer k
      else if hasId slots k then { presence := .present, missed := 0, lastSeen := s.line.round }
      else
        { presence := if s.leaves slots k then .absent else (s.peer k).presence
          missed := if (s.peer k).missed < s.image.absenceLimit then (s.peer k).missed + 1 else s.image.absenceLimit
          lastSeen := (s.peer k).lastSeen } := by
  rw [State.peer, State.censusTaken, State.afterSlots, foldl_set_peer]
  by_cases hsmall : k.val < s.image.groupSize
  · rw [if_pos (State.mem_censusIds.mpr hsmall), if_neg (Nat.not_le.mpr hsmall), State.peerAfter, State.leaves_mapRead,
      State.mapRead, hasId_census, decide_eq_true hsmall, Bool.true_and]
  · rw [if_neg (mt State.mem_censusIds.mp hsmall), if_pos (Nat.not_lt.mp hsmall)]
    rfl

theorem State.news_beyond {k : StationId} (h : ¬k.val < s.image.groupSize) : s.news slots k = none := by
  simp [State.news, s.joins_beyond slots h, s.leaves_beyond slots h]

theorem State.censusTaken_entries :
    (s.censusTaken slots).table.entries = s.table.entries.map (fun e =>
      { e with
        orphaned :=
          if e.origin = s.id then e.orphaned
          else if s.joins slots e.origin then false
          else if s.leaves slots e.origin then true
          else e.orphaned }) := by
  refine List.map_congr_left fun e _ => ?_
  have hnews : (if e.origin ∈ s.censusIds then s.news (s.mapRead slots) e.origin else none) = s.news slots e.origin := by
    rw [State.news, State.joins_mapRead, State.leaves_mapRead]
    by_cases hsmall : e.origin.val < s.image.groupSize
    · exact if_pos (State.mem_censusIds.mpr hsmall)
    · rw [if_neg (mt State.mem_censusIds.mp hsmall), s.news_beyond slots hsmall]
  rw [State.remark, hnews, State.news]
  refine congrArg (fun b => { e with orphaned := b }) ?_
  split_ifs <;> rfl

theorem State.censusTaken_find (o : StationId) (c : Channel) :
    ((s.censusTaken slots).table.find o c).isSome = (s.table.find o c).isSome := by
  rw [Table.find, Table.find, State.censusTaken_entries, List.find?_map, Option.isSome_map]
  rfl

theorem State.censusTaken_generation :
    (s.censusTaken slots).table.generation = s.table.generation + BitVec.ofNat 16
      (s.table.entries.filter (fun e => decide (e.origin ≠ s.id) &&
        ((s.joins slots e.origin && e.orphaned) || s.leaves slots e.origin))).length := by
  rw [State.censusTaken, State.afterSlots, State.tableAfter, ← List.countP_eq_length_filter]
  refine congrArg (fun n => s.table.generation + BitVec.ofNat 16 n) (List.countP_congr fun e _ => ?_)
  rw [State.touches, State.joins_mapRead, State.leaves_mapRead]
  by_cases hsmall : e.origin.val < s.image.groupSize
  · rw [decide_eq_true (State.mem_censusIds.mpr hsmall), Bool.true_and]
  · simp [s.joins_beyond slots hsmall, s.leaves_beyond slots hsmall]

theorem hasId_joiners (map : IdSet) (ks : List StationId) (k : StationId) :
    hasId (s.joiners map ks) k = (decide (k ∈ ks) && decide (s.news map k = some false)) := by
  induction ks with
  | nil => exact hasId_zero k
  | cons j ks ih =>
    have hcons : s.joiners map (j :: ks) = (if s.news map j = some false then idBit j else 0) ||| s.joiners map ks := rfl
    rw [hcons, hasId_or, ih]
    by_cases hj : k = j
    · subst hj
      by_cases hnews : s.news map k = some false
      · simp [hnews, hasId_idBit]
      · rw [if_neg hnews, hasId_zero, decide_eq_false hnews, Bool.and_false, Bool.and_false]
        rfl
    · have hbit : hasId (if s.news map j = some false then idBit j else 0) k = false := by
        split
        · rw [hasId_idBit, decide_eq_false (Ne.symm hj)]
        · exact hasId_zero k
      rw [hbit, Bool.false_or]
      simp [hj]

theorem State.censusTaken_queue :
    ∃ joined : IdSet, (∀ k, hasId joined k = (s.joins slots k && decide (k ≠ s.id))) ∧
      (s.censusTaken slots).queue = s.queue.map (fun e => { e with receipts := e.receipts &&& ~~~joined }) := by
  refine ⟨s.joiners (s.mapRead slots) s.censusIds, fun k => ?_, rfl⟩
  rw [hasId_joiners, State.news, State.joins_mapRead, State.leaves_mapRead]
  by_cases hsmall : k.val < s.image.groupSize
  · rw [decide_eq_true (State.mem_censusIds.mpr hsmall), Bool.true_and]
    by_cases hown : k = s.id
    · simp [hown]
    · cases s.joins slots k <;> cases s.leaves slots k <;> simp [hown]
  · rw [decide_eq_false (mt State.mem_censusIds.mp hsmall), s.joins_beyond slots hsmall]
    rfl

theorem State.censusTaken_feed :
    (s.censusTaken slots).feed = s.feed.recordAll s.image.watermark s.line.round (s.censusRecords slots) := by
  rw [State.censusTaken, State.afterSlots, State.filterMap_newsRecord]

end

/-! ### Records that find room -/

theorem Feed.arrive_room {w : Nat} {r : Counter} {u : Bool} {b : FeedBody} {f : Feed} (h : f.records.length < 32) :
    (f.arrive w r u b).records.map (·.body) = f.records.map (·.body) ++ [b] ∧
      (f.arrive w r u b).urgentCount = f.urgentCount + (if u then 1 else 0) ∧
      (f.arrive w r u b).irq = (decide (w ≤ f.records.length + 1) || decide (0 < f.urgentCount + (if u then 1 else 0))) := by
  rw [Feed.arrive, if_pos (by exact h)]
  simp [Feed.append, Feed.judge]

theorem Feed.recordAll_room {w : Nat} {r : Counter} (bs : List FeedBody) {f : Feed} (h : f.records.length + bs.length ≤ 32) :
    (f.recordAll w r bs).records.map (·.body) = f.records.map (·.body) ++ bs ∧
      (f.recordAll w r bs).urgentCount = f.urgentCount := by
  induction bs generalizing f with
  | nil => exact ⟨(List.append_nil _).symm, rfl⟩
  | cons b bs ih =>
    rw [List.length_cons] at h
    obtain ⟨hbodies, hurgent, _⟩ := Feed.arrive_room (w := w) (r := r) (u := false) (b := b) (f := f) (by omega)
    have hlength : (f.arrive w r false b).records.length = f.records.length + 1 := by
      simpa using congrArg List.length hbodies
    obtain ⟨hrest, hcount⟩ := ih (f := f.arrive w r false b) (by omega)
    rw [Feed.recordAll_cons]
    refine ⟨?_, hcount.trans hurgent⟩
    rw [hrest, hbodies, List.append_assoc]
    rfl

/-- IRQ stays asserted while an urgent record is held (R197). -/
theorem Feed.recordAll_irq {w : Nat} {r : Counter} (bs : List FeedBody) {f : Feed} (hurgent : 0 < f.urgentCount)
    (hirq : f.irq = true) : (f.recordAll w r bs).irq = true := by
  induction bs generalizing f with
  | nil => exact hirq
  | cons b bs ih =>
    rw [Feed.recordAll_cons]
    by_cases hroom : f.records.length < Config.feedPlaces
    · obtain ⟨_, hcount, hline⟩ := Feed.arrive_room (w := w) (r := r) (u := false) (b := b) (f := f) hroom
      refine ih (by rw [hcount]; exact hurgent) ?_
      rw [hline]
      simp [hurgent]
    · have hlost : f.arrive w r false b = f.lose false := if_neg hroom
      rw [hlost]
      exact ih hurgent hirq

/-! ### The end of the census (R109, R153, R157) -/

/-- The station that enters QUIET for a cause, without a part in a group (R13). -/
def State.quieted (cause : QuietCause) (s : State) : State :=
  { s with
    station := .quiet, cause := cause, silenceTimer := none
    feed := s.feed.arrive s.image.watermark s.line.round true (.stationQuiet cause)
    ann := { s.ann with link := false, code := s.ann.own } }

theorem State.enterQuiet_out {s : State} (h : s.station.participates = false) (c : QuietCause) (o : WindowOutcome) :
    s.enterQuiet c o = s.quieted c :=
  State.enterQuiet_of_leaveGroup (State.leaveGroup_out h o)

/-- The engine past the census, with `left` bit times of it told at once. -/
def State.atGap (s : State) (slots : IdSet) (left : Nat) : LineEngine :=
  { s.line with position := .round .gapCensus 0, tx := s.line.tx.drop left, censusMap := s.mapRead slots }

/-- The feed after an id clash: STATION_QUIET after the census's records where the roster is first, and before them where the
controller is (R153, log entry 5). -/
def State.clashFeed (s : State) (slots : IdSet) : TakenFirst → Feed
  | .owner => (s.feed.recordAll s.image.watermark s.line.round (s.censusRecords slots)).arrive s.image.watermark s.line.round true
      (.stationQuiet .idClash)
  | .controller => (s.feed.arrive s.image.watermark s.line.round true (.stationQuiet .idClash)).recordAll s.image.watermark
      s.line.round (s.censusRecords slots)

/-- The station after a census in LISTEN that found its own slot driven (R10, R153). -/
def State.clashed (s : State) (slots : IdSet) (left : Nat) (first : TakenFirst) : State :=
  { s.censusTaken slots with
    station := .quiet, cause := .idClash, silenceTimer := none, listenCount := s.listenCount + 1, line := s.atGap slots left
    feed := s.clashFeed slots first, ann := { s.ann with link := false, code := s.ann.own } }

/-- The station after any other census, its listen count still to be counted. -/
def State.censusOver (s : State) (slots : IdSet) (left : Nat) : State :=
  { s.censusTaken slots with line := s.atGap slots left }

section
variable {s : State} {slots : IdSet} {left : Nat}

theorem State.takeCensus_owner (hlisten : s.station = .listen) (hleft : s.line.position.bitsLeft s.image.groupSize = left) :
    State.enterQuiet .idClash .lost
      ((s.pastCensus slots (s.listenCount + 1)).takeCensus (slots &&& slotMask s.image.groupSize)) =
      s.clashed slots left .owner := by
  have htaken : (s.pastCensus slots (s.listenCount + 1)).takeCensus (slots &&& slotMask s.image.groupSize) =
      { s.censusTaken slots with line := s.atGap slots left, listenCount := s.listenCount + 1 } := by
    rw [State.takeCensus_eq, ← hleft]
    rfl
  rw [htaken, State.enterQuiet_out (by exact congrArg StationState.participates hlisten), State.clashed, State.clashFeed,
    ← State.censusTaken_feed]
  rfl

theorem State.takeCensus_controller (hlisten : s.station = .listen)
    (hleft : s.line.position.bitsLeft s.image.groupSize = left) :
    (State.enterQuiet .idClash .lost (s.pastCensus slots (s.listenCount + 1))).takeCensus (slots &&& slotMask s.image.groupSize) =
      s.clashed slots left .controller := by
  rw [State.enterQuiet_out (by exact congrArg StationState.participates hlisten), State.takeCensus_eq, State.clashed,
    State.clashFeed, ← State.filterMap_newsRecord, ← hleft]
  rfl

/-- The end of a census that is followed (R109, R153, R157). -/
theorem exec_censusEnd (hrst : s.rst = false) (hobserves : s.station.observes = true)
    (hposition : s.line.position.inCensus = true) (hleft : s.line.position.bitsLeft s.image.groupSize = left)
    (first : TakenFirst) :
    exec (.censusEnd slots first) s = .next
      (if s.station = .listen ∧ hasId (s.mapRead slots) s.id = true then s.clashed slots left first
      else (s.censusOver slots left).countListen) := by
  have hround : s.line.position.inRound = true := by
    cases h : s.line.position with
    | round => rfl
    | off | seek | idle => rw [h] at hposition; exact Bool.noConfusion hposition
  have hfollows : s.follows = true := Bool.and_eq_true_iff.mpr ⟨hobserves, hround⟩
  rw [exec_event_off (f := State.finishCensus slots first) rfl hrst]
  obtain ⟨hnot, _⟩ | ⟨_, _, ⟨hlisten, hown, ⟨rfl, h⟩ | ⟨rfl, h⟩⟩ | ⟨hclash, h⟩⟩ := s.finishCensus_cases slots first
  · exact absurd ⟨hfollows, hposition⟩ hnot
  · rw [h, State.takeCensus_owner hlisten hleft, if_pos ⟨hlisten, hown⟩]
  · rw [h, State.takeCensus_controller hlisten hleft, if_pos ⟨hlisten, hown⟩]
  · rw [h, if_neg (c := s.station = .listen ∧ hasId (s.mapRead slots) s.id = true) hclash, State.takeCensus_eq,
      State.censusOver, State.atGap, ← hleft]
    rfl

theorem inCensus_of_place
    (h : (∃ b, s.line.position = .round .census b ∧ left = s.image.groupSize - b) ∨
      ∃ b, s.line.position = .round .gapMark b ∧ left = 2 - b + s.image.groupSize) :
    s.line.position.inCensus = true ∧ s.line.position.bitsLeft s.image.groupSize = left := by
  obtain ⟨b, h, rfl⟩ | ⟨b, h, rfl⟩ := h <;> rw [h] <;> exact ⟨rfl, rfl⟩

theorem State.countListen_cases (s : State) :
    (s.station ≠ .listen ∧ s.countListen = s) ∨
      (s.station = .listen ∧ s.listenCount = 0 ∧ s.countListen = { s with listenCount := 1 }) ∨
      (s.station = .listen ∧ 0 < s.listenCount ∧
        s.countListen = { s with
          listenCount := s.listenCount + 1, station := .joining, silenceTimer := none
          queue := joined s.id s.table s.queue }) := by
  by_cases hlisten : s.station = .listen
  · have hcount : s.countListen = _ := if_pos hlisten
    rcases Nat.eq_zero_or_pos s.listenCount with hzero | hpos
    · refine .inr (.inl ⟨hlisten, hzero, hcount.trans ?_⟩)
      rw [if_neg (by simp [hzero]), hzero]
    · exact .inr (.inr ⟨hlisten, hpos, hcount.trans (if_pos (by exact Nat.succ_le_succ hpos))⟩)
  · exact .inl ⟨hlisten, if_neg hlisten⟩

/-- What the end of a census makes of the station beside the roster's part. -/
theorem State.censusEnd_form (s : State) (slots : IdSet) (left : Nat) (first : TakenFirst) :
    let clash := s.station = .listen ∧ hasId (s.mapRead slots) s.id = true
    ∃ station cause silenceTimer listenCount queue feed ann,
      (if clash then s.clashed slots left first else (s.censusOver slots left).countListen) =
        { s.censusTaken slots with
          station := station, cause := cause, silenceTimer := silenceTimer, listenCount := listenCount, queue := queue
          feed := feed, ann := ann, line := s.atGap slots left } ∧
      (¬clash → cause = s.cause ∧ ann = s.ann ∧ feed = (s.censusTaken slots).feed) ∧
      (station ≠ .joining ∨ s.station = .joining → queue = (s.censusTaken slots).queue) ∧
      (s.station ≠ .listen → station = s.station ∧ silenceTimer = s.silenceTimer ∧ listenCount = s.listenCount) := by
  intro clash
  by_cases hclash : clash
  · rw [if_pos hclash]
    exact ⟨_, _, _, _, _, _, _, rfl, fun h => absurd hclash h, fun _ => rfl, fun h => absurd hclash.1 h⟩
  · rw [if_neg hclash]
    obtain ⟨_, h⟩ | ⟨hlisten, _, h⟩ | ⟨hlisten, _, h⟩ := (s.censusOver slots left).countListen_cases <;> rw [h]
    · exact ⟨_, _, _, _, _, _, _, rfl, fun _ => ⟨rfl, rfl, rfl⟩, fun _ => rfl, fun _ => ⟨rfl, rfl, rfl⟩⟩
    · exact ⟨_, _, _, _, _, _, _, rfl, fun _ => ⟨rfl, rfl, rfl⟩, fun _ => rfl, fun h => absurd hlisten h⟩
    · refine ⟨_, _, _, _, _, _, _, rfl, fun _ => ⟨rfl, rfl, rfl⟩, fun h => ?_, fun h => absurd hlisten h⟩
      rcases h with h | h
      · exact absurd rfl h
      · exact nomatch hlisten.symm.trans h

end

/-- Settles O44: the census as the roster takes it, and what the station makes of it beside. -/
theorem censusUpdatesTheRoster : Obligations.CensusUpdatesTheRoster := by
  unfold Obligations.CensusUpdatesTheRoster
  intro s slots first left hrst hstation hplace clash
  obtain ⟨hposition, hleft⟩ := inCensus_of_place hplace
  have hexec := exec_censusEnd (slots := slots) hrst (StationState.observes_iff.mpr hstation) hposition hleft first
  have hclash : (s.station = .listen ∧ hasId (s.mapRead slots) s.id = true) ↔ clash := by
    rw [State.mapRead, hasId_census, Bool.and_eq_true, decide_eq_true_eq, and_comm (a := s.id.val < _)]
    exact Iff.rfl
  obtain ⟨station, cause, silenceTimer, listenCount, queue, feed, ann, hform, hcalm, hqueue, helse⟩ :=
    s.censusEnd_form slots left first
  rw [hclash] at hcalm
  refine ⟨_, hexec, ?_⟩
  rw [hform]
  refine ⟨rfl, fun h => ⟨(hcalm h).1, (hcalm h).2.1⟩, rfl, hasId_census slots _, s.censusTaken_peer slots,
    s.censusTaken_entries slots, rfl, s.censusTaken_generation slots, fun h hroom => ?_, fun h => ?_, helse⟩
  · have hfeed : feed = s.feed.recordAll s.image.watermark s.line.round (s.censusRecords slots) :=
      (hcalm h).2.2.trans (s.censusTaken_feed slots)
    rw [hfeed]
    exact Feed.recordAll_room _ hroom
  · obtain ⟨joined, hjoined, htaken⟩ := s.censusTaken_queue slots
    exact ⟨joined, hjoined, (hqueue h).trans htaken⟩

/-- Where there is room, STATION_QUIET stands after or before the census's records, and IRQ follows it (R197). -/
theorem State.clashFeed_room {s : State} {slots : IdSet} (hroom : s.feed.records.length + (s.censusRecords slots).length < 32) :
    ((s.clashFeed slots .owner).records.map (·.body) =
        s.feed.records.map (·.body) ++ s.censusRecords slots ++ [.stationQuiet .idClash] ∧
      (s.clashFeed slots .owner).irq = true) ∧
    (s.clashFeed slots .controller).records.map (·.body) =
        s.feed.records.map (·.body) ++ [.stationQuiet .idClash] ++ s.censusRecords slots ∧
      (s.clashFeed slots .controller).irq = true := by
  have hurgent (f : Feed) (hf : f.records.length < 32) := Feed.arrive_room (w := s.image.watermark) (r := s.line.round) (u := true)
    (b := .stationQuiet .idClash) hf
  constructor
  · obtain ⟨hbodies, _⟩ := Feed.recordAll_room (w := s.image.watermark) (r := s.line.round) (s.censusRecords slots)
      (f := s.feed) (Nat.le_of_lt hroom)
    have hlength : (s.feed.recordAll s.image.watermark s.line.round (s.censusRecords slots)).records.length < 32 := by
      have h := congrArg List.length hbodies
      simp only [List.length_map, List.length_append] at h
      omega
    obtain ⟨hlast, _, hirq⟩ := hurgent _ hlength
    rw [State.clashFeed]
    exact ⟨by rw [hlast, hbodies], by rw [hirq]; simp⟩
  · obtain ⟨hfirst, hcount, hirq⟩ := hurgent s.feed (by omega)
    have hlength := congrArg List.length hfirst
    simp only [List.length_map, List.length_append, List.length_singleton] at hlength
    rw [State.clashFeed]
    refine ⟨?_, Feed.recordAll_irq _ (by rw [hcount]; exact Nat.succ_pos _) (by rw [hirq]; simp)⟩
    rw [(Feed.recordAll_room _ (by omega)).1, hfirst]

/-- Settles O45: what a census in LISTEN leads to. -/
theorem censusEndsListen : Obligations.CensusEndsListen := by
  unfold Obligations.CensusEndsListen
  intro s slots left hrst hlisten hplace hqueue own
  obtain ⟨hposition, hleft⟩ := inCensus_of_place hplace
  have hexec := exec_censusEnd (slots := slots) hrst (by rw [hlisten]; rfl) hposition hleft
  have hown : own = hasId (s.mapRead slots) s.id := (hasId_census slots _ _).symm
  have hcalm (h : own = false) :
      ¬(s.station = .listen ∧ hasId (s.mapRead slots) s.id = true) := by
    rw [← hown, h]
    exact fun h => Bool.noConfusion h.2
  refine ⟨fun first hoff hzero => ⟨_, (hexec first).trans (congrArg _ (if_neg (hcalm hoff))), ?_⟩,
    fun first hoff hone => ⟨_, (hexec first).trans (congrArg _ (if_neg (hcalm hoff))), ?_⟩, fun hon => ?_⟩
  · obtain ⟨hnot, _⟩ | ⟨_, _, h⟩ | ⟨_, hpos, _⟩ := (s.censusOver slots left).countListen_cases
    · exact absurd hlisten hnot
    · rw [h]
      exact ⟨hlisten, rfl, rfl⟩
    · exact absurd (hzero ▸ hpos : 0 < 0) (Nat.lt_irrefl 0)
  · obtain ⟨hnot, _⟩ | ⟨_, hzero, _⟩ | ⟨_, _, h⟩ := (s.censusOver slots left).countListen_cases
    · exact absurd hlisten hnot
    · exact absurd (hone.symm.trans hzero) (by decide)
    · rw [h]
      have hok : QueueOk s.id (s.censusTaken slots).queue := by
        have hcalm := s.takeCensus_calm s.id (s.mapRead slots)
        rw [State.takeCensus_eq] at hcalm
        exact hcalm.ok (State.sends.queueOk hqueue)
      refine ⟨rfl, rfl, rfl, rfl, slotEntry_joined_replay _ hok, fun c hc => ?_⟩
      have hfind : ((s.censusTaken slots).table.find s.id c).isSome = true :=
        (s.censusTaken_find slots s.id c).trans (Option.isSome_iff_ne_none.mpr hc)
      refine (congrArg Option.isSome
        (slotEntry_joined_channel s.id (s.censusTaken slots).table (s.censusTaken slots).queue c)).trans ?_
      rw [if_pos hfind, Option.isSome_or]
      exact Bool.or_true _
  · have hclash : s.station = .listen ∧ hasId (s.mapRead slots) s.id = true := ⟨hlisten, hown ▸ hon⟩
    refine ⟨_, _, (hexec .owner).trans (congrArg _ (if_pos hclash)), (hexec .controller).trans (congrArg _ (if_pos hclash)),
      rfl, rfl, rfl, rfl, rfl, rfl, fun hroom => ?_⟩
    obtain ⟨howner, hcontroller⟩ := State.clashFeed_room hroom
    exact ⟨howner.1, hcontroller.1, howner.2, hcontroller.2⟩

end Sys2Proof.Machine
end

section
/-! PROOFS. The start of a window: the choice by the lowest key, the start bit and the frame formed (R80 to R82, R113,
R130): O48. -/

namespace Sys2Proof.Machine

/-! ### The lowest key -/

/-- An entry with a lower key than the older ones and no higher key than the younger ones is the lowest (R80). -/
theorem lowestKey_eq {key : QueueEntry → Nat} {e : QueueEntry} {older younger : List QueueEntry}
    (holder : ∀ f ∈ older, key e < key f) (hyounger : ∀ f ∈ younger, key e ≤ key f) :
    lowestKey key (older ++ e :: younger) = some e := by
  induction older with
  | nil =>
    rw [List.nil_append, lowestKey]
    cases h : lowestKey key younger with
    | none => rfl
    | some f => exact if_neg (Nat.not_lt.mpr (hyounger f (lowestKey_mem h)))
  | cons g older ih =>
    rw [List.cons_append, lowestKey, ih fun f hf => holder f (List.mem_cons_of_mem g hf)]
    exact if_pos (holder g List.mem_cons_self)

/-! ### The severities set afresh (R81) -/

section
variable (s : State) (e : QueueEntry)

theorem State.refreshSeverity_slot : (s.refreshSeverity e).slot = e.slot := by
  obtain h | ⟨o, c, q, v, v', _, h⟩ := s.refreshSeverity_cases e <;> rw [h]

/-- The severity of an entry is that of its target where the table holds it (R81). -/
def State.severityNow : Notice → Nat
  | .channel c _ => (s.monitor c).record.level.severity
  | .ack o c _ held => ((s.table.find o c).map (·.severity)).getD held
  | .replay => 0

/-- A notice with its severity set afresh. -/
def State.renewed : Notice → Notice
  | .ack o c q held => .ack o c q (s.severityNow (.ack o c q held))
  | .channel c b => .channel c b
  | .replay => .replay

theorem State.refreshSeverity_offered (h : s.station.offers e = true) :
    s.refreshSeverity e = { e with notice := s.renewed e.notice } := by
  obtain ⟨slot, notice, state, restage, withdraw, attempts, receipts⟩ := e
  cases notice with
  | channel c b => rfl
  | replay => rfl
  | ack o c q v => exact if_pos h

theorem State.refreshSeverity_withheld (h : s.station.offers e = false) : s.refreshSeverity e = e := by
  obtain ⟨slot, notice, state, restage, withdraw, attempts, receipts⟩ := e
  cases notice with
  | channel c b => rfl
  | replay => rfl
  | ack o c q v => exact if_neg (by rw [h]; exact Bool.false_ne_true)

theorem State.refreshSeverity_other (h : ¬∃ o c q v, e.notice = .ack o c q v) : s.refreshSeverity e = e := by
  obtain hsame | ⟨o, c, q, v, _, hn, _⟩ := s.refreshSeverity_cases e
  · exact hsame
  · exact absurd ⟨o, c, q, v, hn⟩ h

theorem State.refreshSeverity_frame : s.refreshSeverity e = { e with notice := (s.refreshSeverity e).notice } := by
  obtain h | ⟨o, c, q, v, v', _, h⟩ := s.refreshSeverity_cases e <;> rw [h]

theorem StationState.offers_refreshSeverity (st : StationState) : st.offers (s.refreshSeverity e) = st.offers e := by
  obtain h | ⟨o, c, q, v, v', hn, h⟩ := s.refreshSeverity_cases e <;> rw [h]
  simp [StationState.offers, hn]

end

/-! ### The choice -/

theorem Record.kindToSend_eq (r : Record) (stateOnly : Bool) :
    r.kindToSend stateOnly =
      if stateOnly then if !r.active && r.ackedBy.isSome then .clear else .state
      else if r.active then .raise else .clear := by
  unfold Record.kindToSend
  cases stateOnly <;> cases r.active <;> cases r.ackedBy <;> rfl

/-- The key that an entry contests a window with, its severity set afresh (R81). -/
def State.keyNow (s : State) (n : Notice) : Nat := 256 * (3 - s.severityNow n) + 32 * (s.noticeKind n).rank + s.id.val

/-- The station with the severities set afresh (R81). -/
def State.refreshed (s : State) : State := { s with queue := s.queue.map s.refreshSeverity }

theorem State.noticeKey_renewed (s : State) (n : Notice) : s.refreshed.noticeKey (s.renewed n) = s.keyNow n := by
  cases n <;> rfl

theorem State.noticePayload_renewed (s : State) (n : Notice) : s.refreshed.noticePayload (s.renewed n) = s.noticePayload n := by
  cases n <;> rfl

theorem State.noticeFlight_renewed (s : State) (n : Notice) :
    s.refreshed.noticeFlight (s.renewed n) =
      { key := BitVec.ofNat 10 (s.keyNow n), payload := s.noticePayload n
        crc := frameCrc (BitVec.ofNat 10 (s.keyNow n)) (s.noticePayload n) } := by
  rw [State.noticeFlight, State.noticeKey_renewed, State.noticePayload_renewed]
  rfl

theorem State.refreshed_none {s : State} (h : ∀ e ∈ s.queue, ¬s.station.offers e = true) :
    s.refreshed = s ∧ s.refreshed.candidate = none := by
  have hsame : s.refreshed = s := by
    have hqueue : s.queue.map s.refreshSeverity = s.queue :=
      (List.map_congr_left fun e he => s.refreshSeverity_withheld e (Bool.eq_false_iff.mpr (h e he))).trans (List.map_id' _)
    rw [State.refreshed, hqueue]
  refine ⟨hsame, ?_⟩
  rw [hsame, State.candidate, List.filter_eq_nil_iff.mpr h]
  rfl

/-- The candidate is the eligible entry of lowest key, the oldest among equals (R80). -/
theorem State.refreshed_candidate {s : State} {e : QueueEntry} {older younger : List QueueEntry}
    (hqueue : s.queue = older ++ e :: younger) (he : s.station.offers e = true)
    (holder : ∀ f ∈ older, s.station.offers f = true → s.keyNow e.notice < s.keyNow f.notice)
    (hyounger : ∀ f ∈ younger, s.station.offers f = true → s.keyNow e.notice ≤ s.keyNow f.notice) :
    s.refreshed.candidate = some (s.refreshSeverity e) := by
  have hkey {f : QueueEntry} (hf : s.station.offers f = true) :
      s.refreshed.noticeKey (s.refreshSeverity f).notice = s.keyNow f.notice := by
    rw [s.refreshSeverity_offered f hf]
    exact s.noticeKey_renewed f.notice
  have hoffered {g : QueueEntry} {q : List QueueEntry} (hg : g ∈ (q.map s.refreshSeverity).filter s.station.offers) :
      ∃ f ∈ q, s.station.offers f = true ∧ s.refreshed.noticeKey g.notice = s.keyNow f.notice := by
    obtain ⟨hmem, hoffers⟩ := List.mem_filter.mp hg
    obtain ⟨f, hf, rfl⟩ := List.mem_map.mp hmem
    rw [StationState.offers_refreshSeverity] at hoffers
    exact ⟨f, hf, hoffers, hkey hoffers⟩
  have hsplit : s.refreshed.queue.filter s.station.offers =
      (older.map s.refreshSeverity).filter s.station.offers ++
        s.refreshSeverity e :: (younger.map s.refreshSeverity).filter s.station.offers := by
    rw [State.refreshed, hqueue, List.map_append, List.filter_append, List.map_cons,
      List.filter_cons_of_pos (by rw [StationState.offers_refreshSeverity]; exact he)]
  rw [State.candidate, show s.refreshed.station = s.station from rfl, hsplit]
  refine lowestKey_eq (fun g hg => ?_) fun g hg => ?_
  · obtain ⟨f, hf, hoffers, h⟩ := hoffered hg
    rw [hkey he, h]
    exact holder f hf hoffers
  · obtain ⟨f, hf, hoffers, h⟩ := hoffered hg
    rw [hkey he, h]
    exact hyounger f hf hoffers

/-! ### The window -/

/-- The engine past a start bit (R113). -/
def State.windowEngine (s : State) (driven : Bool) (window : Option Window) (tx : List Bool) : LineEngine :=
  { s.line with
    windowsUsed := s.line.windowsUsed + 1
    position := if driven then .round (.window (s.line.windowsUsed + 1)) 1 else .round .endGap 0, window := window, tx := tx }

theorem LineEngine.startWindow_none (s : State) (driven : Bool) :
    s.line.startWindow driven none =
      s.windowEngine driven
        (if driven then
          some { role := .receiver, flight := none, received := [], judgement := none, sentWhole := false, slots := 0 }
        else none) [] := by
  cases driven <;> rfl

theorem LineEngine.startWindow_some (s : State) (driven : Bool) (f : Flight) :
    s.line.startWindow driven (some f) =
      s.windowEngine driven
        (some { role := .contender, flight := some f, received := [], judgement := none, sentWhole := false, slots := 0 })
        (if driven then (msbBits f.key).map (!·) else []) := by
  cases driven <;> rfl

section
variable {s : State} (hrst : s.rst = false) (hleft : s.windowLeft = true) (hbefore : s.line.position.beforeWindow = true)
  (driven : Bool)
include hrst hleft hbefore

theorem exec_windowStart_none (h : ∀ e ∈ s.queue, ¬s.station.offers e = true) :
    exec (.windowStart driven) s = .next { s with line := s.line.startWindow driven none } := by
  obtain ⟨hsame, hcandidate⟩ := State.refreshed_none h
  rw [exec_event_off (f := State.startWindow driven) rfl hrst]
  obtain ⟨hnot, _⟩ | ⟨_, _, ⟨_, hstart⟩ | ⟨e, he, _⟩⟩ := s.startWindow_cases driven
  · exact absurd ⟨hleft, hbefore⟩ hnot
  · rw [hstart]
    exact congrArg (fun t : State => Host.Outcome.next { t with line := s.line.startWindow driven none }) hsame
  · exact nomatch hcandidate.symm.trans he

theorem exec_windowStart_some {e : QueueEntry} (h : s.refreshed.candidate = some e) :
    exec (.windowStart driven) s = .next { s with
      queue := updateSlot e.slot (fun e => { e with state := .candidate }) (s.queue.map s.refreshSeverity)
      line := s.line.startWindow driven (some (s.refreshed.noticeFlight e.notice)) } := by
  rw [exec_event_off (f := State.startWindow driven) rfl hrst]
  obtain ⟨hnot, _⟩ | ⟨_, _, ⟨hcandidate, _⟩ | ⟨f, hf, hstart⟩⟩ := s.startWindow_cases driven
  · exact absurd ⟨hleft, hbefore⟩ hnot
  · exact nomatch hcandidate.symm.trans h
  · obtain rfl := Option.some.inj (hf.symm.trans h)
    rw [hstart]
    rfl

end

/-- An entry that has become CANDIDATE (R80). -/
def QueueEntry.asCandidate (e : QueueEntry) : QueueEntry := { e with state := .candidate }

/-- The queue after an entry has become CANDIDATE. -/
def State.contested (s : State) (e : QueueEntry) : List QueueEntry :=
  updateSlot e.slot QueueEntry.asCandidate (s.queue.map s.refreshSeverity)

section
variable (s : State) {e : QueueEntry}

theorem State.contested_slots : (s.contested e).map (·.slot) = s.queue.map (·.slot) := by
  have hslots : (fun e : QueueEntry => e.slot) ∘ s.refreshSeverity = (·.slot) := funext s.refreshSeverity_slot
  rw [State.contested, updateSlot_slots (f := QueueEntry.asCandidate) (fun _ => rfl), List.map_map, hslots]

variable {s}

theorem State.slotEntry_contested_same (hq : QueueOk s.id s.queue) (he : e ∈ s.queue) (hoffers : s.station.offers e = true) :
    slotEntry e.slot (s.contested e) = some { e with state := .candidate, notice := s.renewed e.notice } := by
  rw [State.contested, slotEntry_updateSlot (f := QueueEntry.asCandidate) (fun _ => rfl), slotEntry_map s.refreshSeverity_slot,
    hq.slotEntry_of_mem he, Option.map_some, s.refreshSeverity_offered e hoffers]
  rfl

theorem State.slotEntry_contested_ne {j : Fin 15} (hj : j ≠ e.slot) {g : QueueEntry} (hg : slotEntry j s.queue = some g) :
    slotEntry j (s.contested e) = some (s.refreshSeverity g) := by
  rw [State.contested, slotEntry_updateSlot_ne (f := QueueEntry.asCandidate) hj (fun _ => rfl),
    slotEntry_map s.refreshSeverity_slot, hg]
  rfl

end

/-- Settles O48: the station names its candidate, and forms its frame. -/
theorem windowTakesTheLowestKey : Obligations.WindowTakesTheLowestKey := by
  unfold Obligations.WindowTakesTheLowestKey
  refine ⟨fun s driven k b hposition hb => ?_, ?_⟩
  · have hwithin : s.line.position.beforeWindow = false := by
      rw [hposition]
      exact decide_eq_false (Nat.not_le.mpr hb)
    have hstay : s.startWindow driven = s := by
      obtain ⟨_, h⟩ | ⟨_, hat, _⟩ := s.startWindow_cases driven
      · exact h
      · rw [hwithin] at hat
        exact Bool.noConfusion hat
    rw [exec_event (f := State.startWindow driven) rfl, State.unlessRst, hstay, ite_self]
  · intro s driven hrst hstation hplace hleft hnone hqueue eligible severity kind key payload k engine role
    have helig (e : QueueEntry) : s.station.offers e = true ↔ eligible e := StationState.offers_iff
    have hobserves : s.station.observes = true := StationState.observes_iff.mpr hstation
    have hround : s.line.position.inRound = true := by
      obtain ⟨b, h⟩ | ⟨j, b, h, _⟩ := hplace <;> rw [h] <;> rfl
    have hwindow : s.windowLeft = true :=
      s.windowLeft_iff.mpr ⟨s.follows_iff.mpr ⟨hobserves, hround⟩, hleft, hnone⟩
    have hbefore : s.line.position.beforeWindow = true := by
      obtain ⟨b, h⟩ | ⟨j, b, h, hb⟩ := hplace <;> rw [h]
      · rfl
      · exact decide_eq_true hb
    refine ⟨fun hat htx => ?_, fun hno => ?_, fun e older younger hsplit he holder hyounger => ?_⟩
    · have hstart : s.line.position.atStartBit s.image.groupSize = true := by
        obtain h | ⟨j, h⟩ := hat <;> rw [h] <;> simp [Position.atStartBit]
      have hsweep : s.line.sweepDrive = false := by
        obtain h | ⟨j, h⟩ := hat <;> rw [LineEngine.sweepDrive, h]
      rw [State.gtx_eq hrst, htx, hsweep, hstart, decide_eq_true (And.intro hleft hnone)]
      simp only [List.headD_nil, Bool.or_self, Bool.false_or, Bool.true_and, Bool.and_eq_true, decide_eq_true_eq, List.any_eq_true]
      exact ⟨fun h => h.2, fun ⟨f, hf, helig⟩ => ⟨helig.2.elim .inr fun h => .inl h.1, f, hf, helig⟩⟩
    · rw [exec_windowStart_none hrst hwindow hbefore driven fun e he => mt (helig e).mp (hno e he), LineEngine.startWindow_none]
      rfl
    · have hoffers := (helig e).mpr he
      have hmem : e ∈ s.queue := hsplit ▸ List.mem_append_right _ List.mem_cons_self
      have hseverity (n : QueueEntry) : s.severityNow n.notice = severity n := by
        cases h : n.notice <;> simp only [severity, State.severityNow, h]
      have hkind (n : QueueEntry) : s.noticeKind n.notice = kind n := by
        cases h : n.notice with
        | channel c b =>
          simp only [kind, State.noticeKind, h, Record.kindToSend_eq]
          cases b <;> rfl
        | ack | replay => simp only [kind, State.noticeKind, h]
      have hkey (n : QueueEntry) : s.keyNow n.notice = key n := by rw [State.keyNow, hseverity, hkind]
      have hpayload : s.noticePayload e.notice = payload e := by
        cases h : e.notice <;> simp only [payload, State.noticePayload, h]
      have hcandidate : s.refreshed.candidate = some (s.refreshSeverity e) := by
        refine State.refreshed_candidate hsplit hoffers (fun f hf hfo => ?_) fun f hf hfo => ?_
        · rw [hkey, hkey]
          exact holder f hf ((helig f).mp hfo)
        · rw [hkey, hkey]
          exact hyounger f hf ((helig f).mp hfo)
      have htaken := State.slotEntry_contested_same (State.sends.queueOk hqueue) hmem hoffers
      have hexec := exec_windowStart_some hrst hwindow hbefore driven hcandidate
      rw [s.refreshSeverity_offered e hoffers] at hexec
      rw [State.noticeFlight_renewed, hkey, hpayload, LineEngine.startWindow_some] at hexec
      refine ⟨_, hexec, rfl, s.contested_slots, htaken.trans ?_, fun j hj g hg =>
        ⟨_, State.slotEntry_contested_ne hj hg, s.refreshSeverity_frame g, s.refreshSeverity_other g⟩⟩
      rw [← hseverity]
      cases h : e.notice <;> simp only [State.renewed]

end Sys2Proof.Machine
end

section
/-! PROOFS. The line engine after one bit time, part by part (R103, R109, R111 to R115, R118, R128, R137). -/

namespace Sys2Proof.Machine

/-- A window's part after it has read a bit time (R128, R137). -/
theorem Window.readBit_eq (size b : Nat) (driven : Bool) (w : Window) :
    w.readBit size b driven = { w with
      received := if 1 ≤ b ∧ b ≤ 54 then w.received ++ [!driven] else w.received
      slots := if 57 ≤ b ∧ b < 57 + size ∧ w.role = .sender ∧ driven = true then w.slots ||| 1#32 <<< (b - 57)
        else w.slots } := by
  unfold Window.readBit
  by_cases hbits : 1 ≤ b ∧ b ≤ 54
  · rw [if_pos hbits, if_pos hbits, if_neg fun h => by omega]
  · rw [if_neg hbits, if_neg hbits]
    split <;> rfl

/-- The place after one bit time (R103, R114, R115). -/
theorem Position.walk_eq (size windows used : Nat) (sweep : Option SweepPart) (p : Position) :
    p.walk size windows used sweep.isSome =
      match p with
      | .round .mark b => .round .mark (b + 1)
      | .round .gapMark b => if b = 0 then .round .gapMark 1 else .round .census 0
      | .round .census b => .round .census (if b < size then b + 1 else b)
      | .round .gapCensus _ => .round .sweep 0
      | .round .sweep b => .round .sweep (if sweep ≠ none ∧ b < 3 then b + 1 else b)
      | .round .gapSweep b => .round .gapSweep (if b = 0 then 1 else b)
      | .round (.window k) b =>
        if b < 58 + size then .round (.window k) (b + 1)
        else if used < windows then .round (.window k) (59 + size)
        else .round .endGap 0
      | .round .endGap b => .round .endGap (if b < 4 then b + 1 else b)
      | p => p := by
  cases p with
  | off | seek | idle => rfl
  | round f b =>
    cases f with
    | mark | gapCensus => rfl
    | gapMark => cases b <;> simp [Position.walk]
    | gapSweep => cases b <;> simp [Position.walk]
    | census | endGap => simp only [Position.walk]; split <;> rfl
    | sweep => cases sweep <;> simp [Position.walk, apply_ite (Position.round .sweep)]
    | window k =>
      have hwithin : b + 1 < 59 + size ↔ b < 58 + size := by omega
      simp only [Position.walk, hwithin, ← Nat.not_lt, ite_not]

namespace LineEngine

section
variable (image : Image) (supervised driven : Bool) (l : LineEngine)

/-- The engine with its runs counted, where it is supervised (R118). -/
def counted : LineEngine := if supervised then l.countBit driven else l

@[simp] theorem counted_position : (l.counted supervised driven).position = l.position := by cases supervised <;> rfl
@[simp] theorem counted_censusMap : (l.counted supervised driven).censusMap = l.censusMap := by cases supervised <;> rfl
@[simp] theorem counted_sweep : (l.counted supervised driven).sweep = l.sweep := by cases supervised <;> rfl
@[simp] theorem counted_window : (l.counted supervised driven).window = l.window := by cases supervised <;> rfl
@[simp] theorem counted_windowsUsed : (l.counted supervised driven).windowsUsed = l.windowsUsed := by cases supervised <;> rfl

theorem bitTime_eq :
    l.bitTime image supervised driven =
      (((l.counted supervised driven).readBit image.groupSize driven).closeWindow image.groupSize).advance image.groupSize
        image.windows := rfl

/-- What a bit time may change in the engine. -/
theorem bitTime_frame :
    l.bitTime image supervised driven = { l with
      position := (l.bitTime image supervised driven).position, roundTimer := l.roundTimer.map (· - 1)
      censusMap := (l.bitTime image supervised driven).censusMap, sweep := (l.bitTime image supervised driven).sweep
      window := (l.bitTime image supervised driven).window, drivenRun := (l.bitTime image supervised driven).drivenRun
      releasedRun := (l.bitTime image supervised driven).releasedRun, idleRun := (l.bitTime image supervised driven).idleRun
      tx := l.tx.tail } := by
  have hroundTimer := bitTime_roundTimer image supervised driven l
  have htx := bitTime_tx image supervised driven l
  have hlineState := bitTime_lineState image supervised driven l
  have hdeferred := bitTime_deferredMark image supervised driven l
  have hown := bitTime_ownMark image supervised driven l
  have hround := bitTime_round image supervised driven l
  have hresult := bitTime_sweepResult image supervised driven l
  have hsent := bitTime_sweepSent image supervised driven l
  have hused := bitTime_windowsUsed image supervised driven l
  have hcrc := bitTime_crcErrors image supervised driven l
  have hmalformed := bitTime_malformed image supervised driven l
  have habandons := bitTime_abandons image supervised driven l
  generalize l.bitTime image supervised driven = m at *
  rw [← hroundTimer, ← htx, ← hlineState, ← hdeferred, ← hown, ← hround, ← hresult, ← hsent, ← hused, ← hcrc, ← hmalformed,
    ← habandons]

theorem readBit_sweep_isSome : (l.readBit image.groupSize driven).sweep.isSome = l.sweep.isSome := by
  unfold readBit
  split
  · split <;> rfl
  · exact Option.isSome_map
  · rfl
  · rfl

theorem bitTime_position :
    (l.bitTime image supervised driven).position =
      l.position.walk image.groupSize image.windows l.windowsUsed l.sweep.isSome := by
  rw [bitTime_eq, advance]
  simp [readBit_sweep_isSome]

theorem bitTime_allRuns :
    ((l.bitTime image supervised driven).drivenRun, (l.bitTime image supervised driven).releasedRun) =
      (if supervised then if driven then (l.drivenRun + 1, 0) else (0, l.releasedRun + 1)
      else (l.drivenRun, l.releasedRun)) := by
  rw [bitTime_eq, advance, counted]
  cases supervised <;> cases driven <;> simp [countBit]

theorem bitTime_idleRun :
    (l.bitTime image true driven).idleRun =
      if driven = true ∧ (l.position = .seek ∨ l.position = .idle) then l.idleRun + 1 else 0 := by
  rw [bitTime_eq, advance, counted]
  simp [countBit, Position.lineIdle_iff]

/-! ### What is read -/

variable {image supervised driven l}

theorem bitTime_censusMap_eq :
    (l.bitTime image supervised driven).censusMap = ((l.counted supervised driven).readBit image.groupSize driven).censusMap := by
  simp [bitTime_eq, advance]

theorem bitTime_censusMap {b : Nat} (h : l.position = .round .census b) (hb : b < image.groupSize) (k : StationId) :
    hasId (l.bitTime image supervised driven).censusMap k = (hasId l.censusMap k || (driven && decide (k.val = b))) := by
  rw [bitTime_censusMap_eq, readBit, counted_position, h]
  cases driven with
  | false => simp
  | true =>
    have hbit : (1#32 <<< b).getLsbD k.val = decide (k.val = b) := by
      have hk := k.isLt
      by_cases hkb : k.val = b
      · subst hkb
        exact (hasId_idBit k k).trans (by simp)
      · simp [hkb]
        omega
    simp only [hb, and_self, if_true, counted_censusMap, Bool.true_and, ← hbit]
    exact BitVec.getLsbD_or

theorem bitTime_censusMap_ne (h : ∀ b, l.position ≠ .round .census b) :
    (l.bitTime image supervised driven).censusMap = l.censusMap := by
  rw [bitTime_censusMap_eq, readBit, counted_position]
  cases hp : l.position with
  | off | seek | idle => simp
  | round f b =>
    cases f with
    | census => exact absurd hp (h b)
    | _ => simp

theorem bitTime_sweep_eq :
    (l.bitTime image supervised driven).sweep = ((l.counted supervised driven).readBit image.groupSize driven).sweep := by
  simp [bitTime_eq, advance]

theorem bitTime_sweep {b : Nat} (h : l.position = .round .sweep b) (hb : b < 3) :
    (l.bitTime image supervised driven).sweep = l.sweep.map (fun p =>
      { p with
        participant := p.participant && (p.code.getMsbD b || !driven)
        sent := p.sent ++ [p.participant && p.code.getMsbD b], read := p.read ++ [driven] }) := by
  have hread (p : SweepPart) : p.readBit b driven =
      { p with
        participant := p.participant && (p.code.getMsbD b || !driven)
        sent := p.sent ++ [p.participant && p.code.getMsbD b], read := p.read ++ [driven] } := by
    cases hp : p.participant <;> simp [SweepPart.readBit, sweepBit, hp]
  rw [bitTime_sweep_eq, readBit, counted_position, h]
  simp only [hb, if_true, counted_sweep, hread]

theorem bitTime_sweep_ne (h : ∀ b, l.position ≠ .round .sweep b) : (l.bitTime image supervised driven).sweep = l.sweep := by
  rw [bitTime_sweep_eq, readBit, counted_position]
  cases hp : l.position with
  | off | seek | idle => simp
  | round f b =>
    cases f with
    | sweep => exact absurd hp (h b)
    | census => simp only; split <;> simp
    | _ => simp

theorem bitTime_window_eq :
    (l.bitTime image supervised driven).window =
      (((l.counted supervised driven).readBit image.groupSize driven).closeWindow image.groupSize).window := by
  simp [bitTime_eq, advance]

/-- A window's part reads its bit time; a receiver's is dropped at the end of the closing gap (R128). -/
theorem bitTime_window {k b : Nat} {w : Window} (h : l.position = .round (.window k) b) (hw : l.window = some w) :
    (l.bitTime image supervised driven).window =
      if 58 + image.groupSize ≤ b ∧ w.role = .receiver then none else some (w.readBit image.groupSize b driven) := by
  rw [bitTime_window_eq, closeWindow, readBit_position, counted_position, readBit, counted_position, h]
  simp only [Position.closesWindow, counted_window, hw, Option.map_some, Window.readBit_role, Option.getD_some, Bool.and_eq_true,
    decide_eq_true_eq]
  split <;> rfl

theorem bitTime_window_ne (h : ∀ k b, l.position ≠ .round (.window k) b) :
    (l.bitTime image supervised driven).window = l.window := by
  have hopen : l.position.closesWindow image.groupSize = false := by
    cases hp : l.position with
    | off | seek | idle => rfl
    | round f b =>
      cases f with
      | window k => exact absurd hp (h k b)
      | _ => rfl
  rw [bitTime_window_eq, closeWindow, readBit_position, counted_position, hopen, Bool.false_and, if_neg Bool.false_ne_true,
    readBit, counted_position]
  cases hp : l.position with
  | off | seek | idle => simp
  | round f b =>
    cases f with
    | window k => exact absurd hp (h k b)
    | census => simp only; split <;> simp
    | _ => simp

end

end LineEngine

end Sys2Proof.Machine
end

section
/-! PROOFS. What one bit time brings, in order, and the bit time as a whole (R25, R103 to R119, R131 to R139; log entry 2): O3. -/

namespace Sys2Proof.Machine

/-! ### Timers -/

theorem timerDue_one (t : Option Nat) : timerDue 1 t = decide (t = some 1) := by
  cases t with
  | none => rfl
  | some n =>
    have h : (0 < n ∧ n ≤ 1) ↔ n = 1 := by omega
    simp [timerDue, h]

theorem State.dueLineTimers_eq (s : State) :
    s.dueLineTimers = (if s.line.roundTimer = some 1 then [.roundTimerExpiry] else []) ++
      (if s.silenceTimer = some 1 then [.silenceTimerExpiry] else []) := by
  simp only [State.dueLineTimers, timerDue_one, decide_eq_true_eq]

/-! ### The start bit and the frame -/

/-- A start bit position that this station follows is a start bit driven where a window is left and an entry may be sent. -/
theorem State.startBitDrive_iff {s : State} (hobserves : s.station.observes = true)
    (hstart : s.line.position.atStartBit s.image.groupSize = true) :
    s.startBitDrive = true ↔
      s.line.windowsUsed < s.image.windows ∧ lineEntry s.queue = none ∧
        s.queue.any (fun e => decide (e.state = .waiting ∧
          (s.station = .active ∨ (s.station = .joining ∧ e.notice = .replay)))) = true := by
  have hround : s.line.position.inRound = true := by
    cases h : s.line.position with
    | round => rfl
    | off | seek | idle => rw [h] at hstart; exact Bool.noConfusion hstart
  have hoffers : s.queue.any s.station.offers = s.queue.any (fun e => decide (e.state = .waiting ∧
      (s.station = .active ∨ (s.station = .joining ∧ e.notice = .replay)))) :=
    congrArg s.queue.any (funext fun e => StationState.offers_eq s.station e)
  rw [State.startBitDrive, State.candidate_isSome, hoffers]
  simp only [Bool.and_eq_true, State.windowLeft_iff, State.follows_iff, hobserves, hround, hstart, true_and, and_true, and_assoc]

theorem State.startBitEvents_eq {s : State} (hobserves : s.station.observes = true)
    (hstart : s.line.position.atStartBit s.image.groupSize = true) (driven : Bool) :
    s.startBitEvents driven = .windowStart driven ::
      (if driven = false ∧ s.line.windowsUsed < s.image.windows ∧ lineEntry s.queue = none ∧
          s.queue.any (fun e => decide (e.state = .waiting ∧
            (s.station = .active ∨ (s.station = .joining ∧ e.notice = .replay)))) = true then
        [.lineFaultAbandon 0 s.firstTaker]
      else []) := by
  rw [State.startBitEvents]
  refine congrArg (Instr.windowStart driven :: ·) (if_congr ?_ rfl rfl)
  rw [Bool.and_eq_true, State.startBitDrive_iff hobserves hstart, Bool.not_eq_true', and_comm]

/-- What a bit of a frame brings at the station that sends it, by the bit sent and the bit read (R131 to R136). -/
theorem State.sendEvents_eq (s : State) (w : Window) (b : Nat) (driven : Bool) :
    s.sendEvents w b driven =
      match w.role, w.flight with
      | .contender, some f =>
        if b < 1 ∨ 10 < b then []
        else if (f.key ++ f.payload ++ f.crc).getMsbD (b - 1) = true ∧ driven = true then [.contestLost b]
        else if (f.key ++ f.payload ++ f.crc).getMsbD (b - 1) = false ∧ driven = false then [.lineFaultAbandon b s.firstTaker]
        else if b = 10 then [.keyWon]
        else []
      | .sender, some f =>
        if b < 11 ∨ 54 < b then []
        else if (f.key ++ f.payload ++ f.crc).getMsbD (b - 1) = driven then [.readBackMismatch b s.firstTaker]
        else if b = 54 then [.frameSentWhole]
        else []
      | _, _ => [] := by
  have hkey : (1 ≤ b ∧ b ≤ 10) ↔ ¬(b < 1 ∨ 10 < b) := by omega
  have hrest : (11 ≤ b ∧ b ≤ 54) ↔ ¬(b < 11 ∨ 54 < b) := by omega
  unfold State.sendEvents
  cases w.flight with
  | none => cases w.role <;> rfl
  | some f =>
    cases w.role with
    | receiver => rfl
    | contender =>
      simp only [hkey, ite_not, Bool.and_eq_true, Bool.not_eq_true']
      rfl
    | sender =>
      simp only [hrest, ite_not]
      rfl

/-! ### Supervision -/

theorem State.supervise_eq (s : State) (driven : Bool) :
    (if s.station = .setup then []
      else (s.line.bitTime s.image (decide (s.station ≠ .setup)) driven).supervise) =
      match s.line.lineState with
      | .up => if s.station ≠ .setup ∧ driven = true ∧ 39 ≤ s.line.drivenRun then [.lineStuck] else []
      | .stuck => if s.station ≠ .setup ∧ driven = false ∧ 63 ≤ s.line.releasedRun then [.lineRestored] else [] := by
  by_cases hsetup : s.station = .setup
  · simp only [hsetup, ne_eq, not_true_eq_false, false_and, if_true, if_false]
    cases s.line.lineState <;> rfl
  · obtain ⟨hdriven, hreleased⟩ := LineEngine.bitTime_runs s.image driven s.line
    rw [if_neg hsetup, decide_eq_true hsetup, LineEngine.supervise, LineEngine.bitTime_lineState, hdriven, hreleased]
    cases s.line.lineState <;> cases driven <;> simp [hsetup, Config.stuckRun, Config.restoreRun]

/-! ### The idle line -/

theorem State.idleEvents_eq (s : State) (driven : Bool) (hsetup : s.station ≠ .setup) :
    s.idleEvents (s.line.bitTime s.image (decide (s.station ≠ .setup)) driven) =
      if s.line.position = .seek ∨ s.line.position = .idle then
        if driven = true ∧ 7 ≤ s.line.idleRun then [.markRecognised]
        else if s.line.ownMark = true ∧ s.line.tx.length = 1 then [.markUnrecognised]
        else []
      else [] := by
  rw [State.idleEvents, decide_eq_true hsetup, LineEngine.bitTime_idleRun]
  by_cases hidle : s.line.position = .seek ∨ s.line.position = .idle
  · have hrun : Config.markRecognition ≤ (if driven = true ∧ (s.line.position = .seek ∨ s.line.position = .idle) then
        s.line.idleRun + 1 else 0) ↔ driven = true ∧ 7 ≤ s.line.idleRun := by
      cases driven <;> simp [hidle, Config.markRecognition]
    simp only [(Position.lineIdle_iff _).mpr hidle, hrun, Bool.and_eq_true, decide_eq_true_eq, if_true, if_pos hidle]
  · rw [if_neg hidle, if_neg (mt (Position.lineIdle_iff _).mp hidle)]

/-- Settles O3: each part of the bit time by its own lemma. -/
theorem emptyQueueIsOneBitTime : Obligations.EmptyQueueIsOneBitTime := by
  unfold Obligations.EmptyQueueIsOneBitTime
  intro s hpending hrst
  refine ⟨_, (step_idle hpending).trans (congrArg _ (State.tick_eq hrst)), ?_⟩
  intro driven size inGroup follows first startBit sent sends windowBrings fieldBrings supervisionBrings
  refine ⟨rfl, fun c => ?_, LineEngine.bitTime_frame _ _ _ _, ?_, fun hsetup => ?_, ?_,
    fun b hb hsize k => LineEngine.bitTime_censusMap hb hsize k, LineEngine.bitTime_censusMap_ne,
    fun b hb hthree => LineEngine.bitTime_sweep hb hthree, LineEngine.bitTime_sweep_ne, fun k b w hb hw => ?_,
    LineEngine.bitTime_window_ne, ?_⟩
  · refine (s.monitor_tickMonitors c).trans ?_
    cases s.image.bitRate <;> rfl
  · refine (LineEngine.bitTime_allRuns _ _ _ _).trans ?_
    by_cases hsetup : s.station = .setup
    · rw [if_pos hsetup, if_neg (by simp [hsetup])]
    · rw [if_neg hsetup, if_pos (decide_eq_true hsetup)]
      rfl
  · refine Eq.trans ?_ (LineEngine.bitTime_idleRun s.image driven s.line)
    simp only [decide_eq_true hsetup]
    rfl
  · exact (LineEngine.bitTime_position _ _ _ _).trans (Position.walk_eq _ _ _ _ _)
  · have hread := LineEngine.bitTime_window (image := s.image) (supervised := decide (s.station ≠ .setup))
      (driven := driven) hb hw
    refine ⟨fun hkeep => hread.trans ?_, fun hover hrole => hread.trans (if_pos ⟨hover, hrole⟩)⟩
    rw [if_neg, Window.readBit_eq]
    exact fun h => hkeep.elim (Nat.not_lt.mpr h.1) fun hrole => hrole h.2
  · have hfollows : follows = s.station.observes := by
      simp only [follows, inGroup]
      cases s.station <;> rfl
    have hgrx : s.grx = driven := rfl
    have hstale : s.dueStaleTimers = (channelOrder.filter (fun c =>
        match (s.monitor c).staleTimer with
        | some n => decide (0 < n ∧ n ≤ s.image.bitRate.bitMicros)
        | none => false)).map Instr.staleTimerExpiry := rfl
    have hfield (hobserves : s.station.observes = true) :
        s.idleEvents (s.line.bitTime s.image (decide (s.station ≠ .setup)) driven) ++
          s.fieldEvents (s.line.bitTime s.image (decide (s.station ≠ .setup)) driven) driven = fieldBrings := by
      have hsetup : s.station ≠ .setup := fun h => by rw [h] at hobserves; exact Bool.noConfusion hobserves
      have hstart (h : s.line.position.atStartBit s.image.groupSize = true) : s.startBitEvents driven = startBit :=
        State.startBitEvents_eq hobserves h driven
      have hwindow (b : Nat) :
          s.windowEvents (s.line.bitTime s.image (decide (s.station ≠ .setup)) driven) b driven = windowBrings b := by
        have hsends (w : Window) : s.sendEvents w b driven = sends w b := s.sendEvents_eq w b driven
        simp only [State.windowEvents, windowBrings, hsends, StationState.participates_eq]
        rfl
      rw [State.idleEvents_eq s driven hsetup, State.fieldEvents]
      cases hp : s.line.position with
      | off => simp [fieldBrings, hp]
      | seek => simp [fieldBrings, hp]
      | idle => simp [fieldBrings, hp]
      | round f b =>
        rw [if_neg (by simp), List.nil_append]
        cases f with
        | mark => simp only [fieldBrings, hp]
        | gapMark => simp only [fieldBrings, hp]
        | census => simp only [fieldBrings, hp]; rfl
        | gapCensus => simp only [fieldBrings, hp]
        | sweep => simp only [fieldBrings, hp]; rfl
        | endGap => simp only [fieldBrings, hp]
        | gapSweep =>
          simp only [fieldBrings, hp]
          by_cases hb : 1 ≤ b
          · rw [if_pos hb]
            exact (if_pos (decide_eq_true hb)).trans (hstart (by rw [hp]; exact decide_eq_true hb))
          · rw [if_neg hb]
            exact if_neg (by simpa [Position.atStartBit] using hb)
        | window k =>
          simp only [fieldBrings, hp]
          by_cases hb : 59 + s.image.groupSize ≤ b
          · rw [if_pos hb]
            exact (if_pos (decide_eq_true hb)).trans (hstart (by rw [hp]; exact decide_eq_true hb))
          · rw [if_neg hb]
            exact (if_neg (by simpa [Position.atStartBit] using hb)).trans (hwindow b)
    have hevents : s.lineEvents (s.line.bitTime s.image (decide (s.station ≠ .setup)) driven) driven =
        (if follows then fieldBrings else []) ++ supervisionBrings := by
      rw [State.lineEvents, State.supervise_eq, hfollows]
      refine congrArg (· ++ supervisionBrings) ?_
      by_cases hobserves : s.station.observes = true
      · rw [if_pos hobserves, if_pos hobserves, hfield hobserves]
      · rw [if_neg hobserves, if_neg hobserves]
    rw [hpending, List.nil_append, hgrx, State.dueLineTimers_eq, hevents, hstale]
    exact congrArg (· ++ _) (List.append_assoc _ _ _).symm

end Sys2Proof.Machine
end
